-- ==== Sys2Proof/Word.lean ====
section
/-! DEFINITION. The word types of the Torzand 3220: the octet of the feed and return lines, and one pixel column
of a line image. -/

namespace Sys2Proof

/-- An octet: eight data bits as carried on a line (section 4 of the scope file). Revisions and tags are octets
too, since the part compares and echoes them modulo 256. -/
abbrev Byte := BitVec 8

/-- One pixel column of a line: bit `r` is the pixel of row `r`, set when lit (R98). -/
abbrev Column := BitVec 16

/-- Text as the part holds it: glyph codes, 0x20..0x7E once accepted (R99). -/
abbrev Text := List Byte

end Sys2Proof
end

