-- ==== Sys2Proof/Syntax.lean ====
section
/-! DEFINITION. The commands of the Torzand 3220: one constructor of `Instr` per row of spec/opcode_table.json.
A message command carries the message as dispatch hands it to its owner (R177): a tag, the reply flag and the
parameters of R179, before any range check. -/

namespace Sys2Proof

/-- One octet as a line delivers it: its data bits and whether its stop bit was received low (R161). -/
structure Octet where
  data : Byte
  stopError : Bool
deriving DecidableEq, Repr

/-- The part of a message its result echoes: the tag and the reply flag (R177, R178). -/
structure Header where
  tag : Byte
  reply : Bool
deriving DecidableEq, Repr

/-- A calling stop: a place number, the request-stop flag and the skipped flag (R1, R179). -/
structure Stop where
  place : Nat
  request : Bool
  skipped : Bool
deriving DecidableEq, Repr

/-- The parameters of POST SERVICE (R179), unchecked. -/
structure PostFields where
  key : Nat
  revision : Byte
  scheduled : Int
  state : Nat
  platform : Text
  destination : Nat
  delay : Option Int
  via : Option Nat
  stops : List Stop
  train : Option Nat
deriving DecidableEq, Repr

/-- The parameters of AMEND SERVICE (R179), unchecked. -/
structure AmendFields where
  key : Nat
  revision : Byte
  delay : Option Int
  state : Option Nat
  platform : Option Text
  train : Option Nat
  skip : Option (List Nat)
  restore : Option (List Nat)
deriving DecidableEq, Repr

/-- A place entry: full name, optional short name and three-letter code (R69). -/
structure PlaceEntry where
  full : Text
  short : Option Text
  code : Text
deriving DecidableEq, Repr

/-- The parameters of WRITE PLACE (R76, R179), unchecked. -/
structure WriteFields where
  place : Nat
  entry : PlaceEntry
deriving DecidableEq, Repr

/-- The parameters of SET BANNER (R138, R179), unchecked: text and duration in seconds, 0 meaning until cleared. -/
structure BannerFields where
  text : Text
  duration : Nat
deriving DecidableEq, Repr

/-- The parameters of SET BOARD in bit order (R186): a setting is present when its mask bit is set. Numbers are as
received, unclamped; an on-or-off octet has been read as 0 off, any other value on. -/
structure BoardFields where
  filter : Option (List Text) := none
  origin : Option Nat := none
  sweepLength : Option Nat := none
  holdover : Option Nat := none
  holdLimit : Option Nat := none
  countdown : Option Nat := none
  lateThreshold : Option Nat := none
  horizon : Option Nat := none
  grace : Option Nat := none
  dwell : Option Nat := none
  scrollRate : Option Nat := none
  scrollPause : Option Nat := none
  scrollEnable : Option Bool := none
  clockEnable : Option Bool := none
  bannerEnable : Option Bool := none
  autoSuspend : Option Bool := none
  alignWindow : Option Nat := none
  mimicCheck : Option Bool := none
  debounce : Option Bool := none
  smallFont : Option Bool := none
deriving DecidableEq, Repr

/-- The two scrolls, each with a strip of its own (R133). -/
inductive ScrollId where
  | calling
  | banner
deriving DecidableEq, Repr

/-- The commands: events from outside and messages delivered to their owners, one constructor per table row. -/
inductive Instr where
  /-- FEED_OCTET (R161): an octet with its stop-bit status. -/
  | feedOctet (o : Octet)
  /-- MISSING_OCTET (R161). -/
  | missingOctet
  /-- OVERHEAD_RECORD (R169): the five gathered octets with their stop-bit status, in order. -/
  | overheadRecord (o1 o2 o3 o4 o5 : Octet)
  /-- MINUTE_EVENT (R39). -/
  | minuteEvent
  /-- FEED_LAPSED (R49). -/
  | feedLapsed
  /-- POST_SERVICE (R9 to R13). -/
  | postService (h : Header) (f : PostFields)
  /-- AMEND_SERVICE (R15 to R18). -/
  | amendService (h : Header) (f : AmendFields)
  /-- RETIRE_SERVICE (R19). -/
  | retireService (h : Header) (key : Nat)
  /-- CLEAR_BOARD (R20). -/
  | clearBoard (h : Header)
  /-- READ_SERVICE (R27). -/
  | readService (h : Header) (key : Nat)
  /-- SWEEP_WINDOW_EXPIRY (R59). -/
  | sweepWindowExpiry
  /-- WRITE_PLACE (R76). -/
  | writePlace (h : Header) (f : WriteFields)
  /-- WRITE_COMPLETE (R77): what the storage reports of its verification. -/
  | writeComplete (verified : Bool)
  /-- ERASE_SECTOR (R78). -/
  | eraseSector (h : Header) (sector : Nat)
  /-- GATHER_WINDOW_EXPIRY (R81). -/
  | gatherWindowExpiry
  /-- SECTOR_ERASE_COMPLETE (R81). -/
  | sectorEraseComplete
  /-- SUSPEND_ERASE (R83). -/
  | suspendErase (h : Header)
  /-- SUSPENSION_COMPLETE (R84). -/
  | suspensionComplete
  /-- RESUME_ERASE (R85). -/
  | resumeErase (h : Header)
  /-- LOCK_SECTORS (R73): bit `s` of the octet stands for sector `s`. -/
  | lockSectors (h : Header) (sectors : Byte)
  /-- FREE_SECTORS (R73). -/
  | freeSectors (h : Header) (sectors : Byte)
  /-- LOCK_CHANGE_COMPLETE (R74). -/
  | lockChangeComplete
  /-- READ_PLACE (R90). -/
  | readPlace (h : Header) (place : Nat)
  /-- SCAN_END (R93). -/
  | scanEnd
  /-- HOLD_BOARD (R141). -/
  | holdBoard (h : Header)
  /-- RELEASE_BOARD (R142). -/
  | releaseBoard (h : Header)
  /-- HOLD_LAPSE (R143). -/
  | holdLapse
  /-- SET_BANNER (R138). -/
  | setBanner (h : Header) (f : BannerFields)
  /-- CLEAR_BANNER (R139). -/
  | clearBanner (h : Header)
  /-- BANNER_EXPIRY (R139). -/
  | bannerExpiry
  /-- SET_BOARD (R187). -/
  | setBoard (h : Header) (f : BoardFields)
  /-- RESTART (R189): never answered, so it carries no header. -/
  | restart
  /-- READ_BOARD (R185). -/
  | readBoard (h : Header)
  /-- TABLE_JOB_COMPLETE (R130, R131). -/
  | tableJobComplete
  /-- CLOCK_JOB_COMPLETE (R132). -/
  | clockJobComplete
  /-- CALLING_STEP_COMPLETE (R136). -/
  | callingStepComplete
  /-- BANNER_COMPOSE_COMPLETE (R140). -/
  | bannerComposeComplete
  /-- BANNER_STEP_COMPLETE (R136). -/
  | bannerStepComplete
  /-- SCROLL_PAUSE_EXPIRY (R135), of the scroll named. -/
  | scrollPauseExpiry (which : ScrollId)
  /-- SCROLL_STEP_DUE (R135), of the scroll named. -/
  | scrollStepDue (which : ScrollId)
  /-- REFRESH (R150). -/
  | refresh
  /-- SHIFT_COMPLETE (R152). -/
  | shiftComplete
  /-- RETURN_OCTET (R184). -/
  | returnOctet
  /-- STAFF_KEY_INPUT_CHANGE (R190): the input's new level, `true` when the contact is closed. -/
  | staffKeyInputChange (closed : Bool)
  /-- STAFF_KEY_DEBOUNCED (R190). -/
  | staffKeyDebounced
  /-- POWER_ON (R94). -/
  | powerOn
  /-- RESET_LINE_ASSERT (R152). -/
  | resetLineAssert
  /-- RESET_RELEASE (R94, R190): the levels of the geometry pins, sampled at release. -/
  | resetRelease (geo1 geo0 : Bool)
deriving DecidableEq, Repr

end Sys2Proof
end

