-- ==== Sys2Proof/Decode.lean ====
section
/-! DEFINITION. Reading a command from a table word. The part has no instruction words: no row of spec/opcode_table.json
gives bits, so no word spells a command. (The messages of the feed line are read in Machine/Operands.lean.) -/

namespace Sys2Proof

/-- The command a word spells by the table's bits: none, since no row gives any. -/
def decodeTableWord (_nbits _w : Nat) : Option Instr :=
  none

end Sys2Proof
end

