-- ==== Sys2Proof/Machine/Geometry.lean ====
section
/-! DEFINITION. The board's geometry (R96): what the latched geometry code fixes. -/

namespace Sys2Proof.Machine

/-- The geometry code latched from the pins: 2 × GEO1 + GEO0 (R96, R190). -/
def geometryCode (geo1 geo0 : Bool) : Nat :=
  2 * geo1.toNat + geo0.toNat

/-- The board's width W in columns (R96). A code beyond 3 does not occur; it is read as code 3. -/
def boardWidth (code : Nat) : Nat :=
  match code with
  | 0 => 192
  | 1 => 256
  | 2 => 320
  | _ => 256

/-- The board's number of lines L (R96). -/
def boardLines (code : Nat) : Nat :=
  match code with
  | 0 => 4
  | 1 => 6
  | 2 => 8
  | _ => 4

/-- R = L − 2: how many positions of the running order the board shows (R22, R96). -/
def shownPositions (code : Nat) : Nat :=
  boardLines code - 2

/-- M = W / 32: modules across a line (R151). -/
def modulesAcross (code : Nat) : Nat :=
  boardWidth code / 32

/-- Modules in the chain (R96). -/
def moduleCount (code : Nat) : Nat :=
  modulesAcross code * boardLines code

/-- A line image that is dark throughout: W dark columns (R98, R148). -/
def darkImage (code : Nat) : List Column :=
  List.replicate (boardWidth code) 0

end Sys2Proof.Machine
end

