-- ==== Sys2Proof/Machine/State.lean ====
section
/-! DEFINITION. Everything the manual gives the part to hold, block by block (section 1.3 of the scope file), as plain
data, with its value at reset. -/

namespace Sys2Proof.Machine

/-! ### The service record and the table (chapters 1 and 3) -/

/-- How a service is running (R1), in the order of its codes 0 to 3 (R179). -/
inductive RunState where
  | scheduled
  | estimated
  | unknownDelay
  | cancelled
deriving DecidableEq, Repr

/-- Why a LEAVING record is leaving (R1). -/
inductive LeaveCause where
  | retired
  | timedOut
  | rolledOff
deriving DecidableEq, Repr

/-- The lifecycle with its leave cause, which is present exactly when LEAVING (R1, R3). -/
inductive Lifecycle where
  | live
  | leaving (cause : LeaveCause)
deriving DecidableEq, Repr

/-- The service record (R1). -/
structure Record where
  key : Nat
  revision : Byte
  scheduled : Int
  state : RunState
  delay : Option Int
  platform : Text
  destination : Nat
  via : Option Nat
  stops : List Stop
  train : Option Nat
  life : Lifecycle
deriving DecidableEq, Repr

/-- The sweep window (R54): in OPEN, the two instants of elapsed time, in ms. -/
inductive SweepWindow where
  | closed
  | opened (expiry cap : Nat)
deriving DecidableEq, Repr

/-- The Service Table: 96 record slots, the running order as the list of keys last recomputed (R22, R23) and the sweep
window. The key index is the search of the slots by key (log entry 5). -/
structure Table where
  slots : List (Option Record)
  order : List Nat
  window : SweepWindow
deriving DecidableEq, Repr

/-! ### The Timekeeper (chapter 2) -/

/-- Feed freshness (R49). -/
inductive Freshness where
  | fresh
  | lapsed
deriving DecidableEq, Repr

/-- The Timekeeper: board time, the time-valid flag, the inconsistency count, "now", the rollover hold flag, and feed
freshness with its timer in ms (R31, R32, R35, R37, R41, R49). -/
structure Timekeeper where
  minute : Nat
  second : Nat
  milli : Nat
  valid : Bool
  inconsistent : Nat
  now : Nat
  rollHold : Bool
  freshness : Freshness
  freshTimer : Nat
deriving DecidableEq, Repr

/-! ### The Place Directory (chapter 4) -/

/-- The RAM state of a place slot (R70), in the order of its codes 0 to 3. -/
inductive SlotState where
  | blank
  | writing
  | valid
  | defective
deriving DecidableEq, Repr

/-- A place slot in storage: its entry and its write-begun and write-complete marks (R69). -/
structure StoredSlot where
  entry : Option PlaceEntry
  begun : Bool
  complete : Bool
deriving DecidableEq, Repr

/-- A blank slot: no entry and neither mark (R69). -/
def StoredSlot.erased : StoredSlot :=
  { entry := none, begun := false, complete := false }

/-- Why an erase is or will be suspended (section 4.7). -/
inductive SuspendCause where
  | commanded
  | paint
deriving DecidableEq, Repr

/-- A slot being written and the message to answer (R76). -/
structure WriteRun where
  place : Nat
  header : Header
deriving DecidableEq, Repr

/-- A lock change in progress: the new set of locked sectors, the kind code and header to answer, and the time left of
its 5 ms (R73, R74). -/
structure LockRun where
  target : List Nat
  kind : Byte
  header : Header
  remaining : Nat
deriving DecidableEq, Repr

/-- An erase: the erase set, the joined messages in join order and the sectors already erased (R78, R82). -/
structure EraseJob where
  set : List Nat
  joined : List Header
  erased : List Nat
deriving DecidableEq, Repr

/-- The current sector, its remaining erasing time in ms, and whether its erase has begun (R81, R83). -/
structure Current where
  sector : Nat
  remaining : Nat
  begun : Bool
deriving DecidableEq, Repr

/-- The nine operation states (R75), each with what only that state holds: the time left of the gather window (R79), the
cause a suspension is to take or has, and the SUSPEND ERASE messages merged into it (R83, R84). -/
inductive DirOp where
  | scanning
  | ready
  | writing (w : WriteRun)
  | locking (l : LockRun)
  | gathering (e : EraseJob) (window : Nat)
  | erasing (e : EraseJob) (c : Current)
  | suspending (e : EraseJob) (c : Current) (cause : SuspendCause) (merged : List Header)
  | suspended (e : EraseJob) (c : Current) (cause : SuspendCause)
  | suspendedWriting (e : EraseJob) (c : Current) (cause : SuspendCause) (w : WriteRun)
deriving DecidableEq, Repr

/-- The Place Directory. In storage, kept through every reset: the place slots, the sectors whose erase-begun mark is set
and the sectors whose lock flag is set (R69). In RAM: the slot-state table (R70), the reference counts (R71), the copy of
the lock flags (R72) and the operation state (R75). The three tables over place numbers list only what differs from
`StoredSlot.erased`, BLANK and 0, by rising place number; sets of sectors are rising lists. -/
structure Directory where
  storage : List (Nat × StoredSlot)
  eraseMarks : List Nat
  lockFlags : List Nat
  slotStates : List (Nat × SlotState)
  counts : List (Nat × Nat)
  locks : List Nat
  op : DirOp
deriving DecidableEq, Repr

/-! ### Layout records (chapter 5) -/

/-- How a platform code was set (R105, R122). -/
inductive PlatformFont where
  | large
  | small
  | cut
deriving DecidableEq, Repr

/-- Whether a text stands still or is a strip (R113, R118, R122). -/
inductive LineMode where
  | static
  | strip
deriving DecidableEq, Repr

/-- How far a calling text was reduced (R114, R115, R122). -/
inductive Reduction where
  | none
  | shortNames
  | trainDropped
  | cut
deriving DecidableEq, Repr

/-- The two screen texts in the order of R119's table. -/
inductive ScreenText where
  | listen
  | follow
deriving DecidableEq, Repr

/-- A font as a layout record names it (R122). -/
inductive ScreenFont where
  | large
  | small
deriving DecidableEq, Repr

/-- The layout record of a line (R122). The platform font is absent with the platform field; a clock holds the minute
shown, or none for the invalid text. -/
inductive LayoutRecord where
  | departure (key step : Nat) (via : Bool) (platform : Option PlatformFont) (test : Nat)
  | calling (key width : Nat) (mode : LineMode) (reduction : Reduction) (stops : Nat)
  | clock (minute : Option Nat)
  | banner (width : Nat) (mode : LineMode)
  | screen (text : ScreenText) (font : ScreenFont)
  | empty
  | blank
  | none
deriving DecidableEq, Repr

/-! ### The Paint Engine (chapter 6) -/

/-- The four request slots in cyclic order (R124). -/
inductive Slot where
  | table
  | scroll
  | clock
  | banner
deriving DecidableEq, Repr

/-- What a compose yields: the line image, the layout record, and the strip when the text is wider than the board (R113,
R118, R130). -/
structure Composed where
  image : List Column
  layout : LayoutRecord
  strip : Option (List Column)
deriving DecidableEq, Repr

/-- What a scroll step yields: the new offset and the window of the strip there (R136). -/
structure StepResult where
  offset : Int
  image : List Column
deriving DecidableEq, Repr

/-- The job of a BUSY arbiter, with what it read and composed at its grant (R120, R124, R130). The outcome is absent when
the job does nothing, or when the line it composed for has passed to another slot since. -/
inductive Job where
  | table (line : Nat) (out : Option Composed)
  | callingStep (out : Option StepResult)
  | clock (out : Option Composed)
  | bannerCompose (out : Option (Nat × Composed))
  | bannerStep (out : Option (Nat × StepResult))
deriving DecidableEq, Repr

/-- A scroll (R134): STILL without a strip, PAUSED at offset 0 with the time left of the pause in ms, or MOVING at an
offset with the time until the next step falls due in ns. -/
inductive Scroll where
  | still
  | paused (strip : List Column) (wait : Nat)
  | moving (strip : List Column) (offset : Int) (wait : Int)
deriving DecidableEq, Repr

/-- The hold state with the time left of a running hold timer in ms (R141). -/
inductive Hold where
  | free
  | held (remaining : Nat)
  | lapsed
deriving DecidableEq, Repr

/-- The banner record (R138): text, width in the large font, and remaining duration in ms, absent for until cleared. -/
structure Banner where
  text : Text
  width : Nat
  remaining : Option Nat
deriving DecidableEq, Repr

/-- Why a bank is busy (R88). -/
inductive BusyCause where
  | write
  | erase
  | scan
deriving DecidableEq, Repr

/-- The Paint Engine (R124, R133, R134, R138, R141, R144): the dirty line set as a rising list, the other request items,
the arbiter (IDLE when it has no job), the hold, the banner, the scrolls with their strips, the suspend request, the bank
report as last received, and one layout record a line (R122). -/
structure Paint where
  dirty : List Nat
  callingStep : Bool
  clockRequest : Bool
  bannerCompose : Bool
  bannerStep : Bool
  lastGranted : Slot
  job : Option Job
  hold : Hold
  banner : Option Banner
  callingScroll : Scroll
  bannerScroll : Scroll
  suspendRequest : Bool
  bankA : Option BusyCause
  bankB : Option BusyCause
  layouts : List LayoutRecord
deriving DecidableEq, Repr

/-! ### Frame Store, Panel Driver and Board State Selector (chapter 7) -/

/-- The screen mode of the board (R154), in the order of its codes 0 to 5. -/
inductive BoardState where
  | starting
  | showing
  | closed
  | unavailable
  | alert
  | dark
deriving DecidableEq, Repr

/-- A shift in progress (R151, R152): the modules' pixel blocks in the order sent, last module of the chain first, each
pixel by pixel; whether the refresh read DARK; and the time left in ns. -/
structure Shift where
  blocks : List (List Bool)
  dark : Bool
  remaining : Int
deriving DecidableEq, Repr

/-- The Frame Store and Panel Driver: a shown and an optional pending image for each line (R148), the refresh timer in ms
(R150), the shift in progress, the blank output (R152), and what each module of the chain has latched (R151). -/
structure FrameStore where
  shown : List (List Column)
  pending : List (Option (List Column))
  refreshTimer : Nat
  shift : Option Shift
  blank : Bool
  panels : List (List Bool)
deriving DecidableEq, Repr

/-! ### The Feed Receiver (chapter 8) -/

/-- The station state (R169), in the order of its codes 0 to 3. -/
inductive StationState where
  | normal
  | closed
  | alert
  | dark
deriving DecidableEq, Repr

/-- The alignment state (R163). HUNTING holds the octets of the span so far; CONFIRMING holds how many octets still come
before the candidate position and the pattern expected there; ALIGNED holds the number of the next octet in its frame, the
parity of that frame (`true` for even) and the error marks of the last six frames, newest first. -/
inductive Alignment where
  | hunting (span : List Octet)
  | confirming (skip : Nat) (pattern : Byte)
  | aligned (octet : Nat) (even : Bool) (marks : List Bool)
deriving DecidableEq, Repr

/-- The last overhead record, as received (R169). -/
structure OverheadRecord where
  minute : Nat
  second : Nat
  state : Byte
deriving DecidableEq, Repr

/-- The Feed Receiver. `held` says it is held in reset during the start-up scan (R163); `started` that it has taken an octet
since its release, so that the next is expected (R161, R163); `position` is the superframe position, `sighting` how many frames ago a marker was last seen while it was unknown, `gathered` the overhead octets
gathered so far (R168). -/
structure FeedReceiver where
  held : Bool
  started : Bool
  alignment : Alignment
  position : Option Nat
  sighting : Option Nat
  gathered : List Octet
  lastRecord : Option OverheadRecord
  candidate : Option StationState
  station : StationState
  lossCount : Nat
deriving DecidableEq, Repr

/-! ### Message Unpacker and Result Sender (chapter 9) -/

/-- The Message Unpacker's state (R174); BODY holds how many octets it still expects. -/
inductive UnpackState where
  | searching
  | length
  | body (expected : Nat)
deriving DecidableEq, Repr

/-- The Message Unpacker: state, reassembly buffer oldest octet first, and bad-message count (R174, R175). -/
structure Unpacker where
  state : UnpackState
  buffer : List Octet
  badCount : Nat
deriving DecidableEq, Repr

/-- The object of an accepted read (R181, R183). -/
inductive ReadObject where
  | service (key : Nat)
  | place (number : Nat)
  | board
deriving DecidableEq, Repr

/-- An entry of the result queue (R181): a decided result, or a read still undecided. -/
inductive Entry where
  | result (kind tag : Byte) (outcome detail : Nat)
  | read (tag : Byte) (object : ReadObject)
deriving DecidableEq, Repr

/-- The Result Sender: the result queue oldest first, the results-lost flag, the return frame counter and the number of
the next octet in that frame, the captured return overhead record, the rest of the record being sent, and the octet last
sent on the return line (none: held at the stop-bit level) (R171, R172, R181, R184, R190). -/
structure ResultSender where
  queue : List Entry
  lost : Bool
  frame : Nat
  octet : Nat
  overhead : List Byte
  record : List Byte
  line : Option Byte
deriving DecidableEq, Repr

/-! ### The Settings Store (chapter 10) -/

/-- The settings record (R186) in bit order. The filter is a set of codes, kept in ascending character order without
repeats; the origin is a clock minute; lengths are in the units of R186's table. -/
structure Settings where
  filter : List Text := []
  origin : Nat := 180
  sweepLength : Nat := 3
  holdover : Nat := 10
  holdLimit : Nat := 5
  countdown : Nat := 0
  lateThreshold : Nat := 2
  horizon : Nat := 240
  grace : Nat := 2
  dwell : Nat := 10
  scrollRate : Nat := 40
  scrollPause : Nat := 2
  scrollEnable : Bool := true
  clockEnable : Bool := true
  bannerEnable : Bool := true
  autoSuspend : Bool := true
  alignWindow : Nat := 5
  mimicCheck : Bool := true
  debounce : Bool := true
  smallFont : Bool := true
deriving DecidableEq, Repr

/-- Every setting at its default (R186). -/
def Settings.default : Settings := {}

/-- The staff key (R190): the level of the input, the time in ms it has held a level that differs from the de-bounced one
(absent when they agree), and the de-bounced level. -/
structure StaffKey where
  input : Bool
  timer : Option Nat
  asserted : Bool
deriving DecidableEq, Repr

/-! ### The whole part -/

/-- Whether the part is held in reset (power-on or reset line, before reset release) or running. -/
inductive Phase where
  | inReset
  | running
deriving DecidableEq, Repr

/-- The state of the part: one field a block, the phase, the elapsed time in ms since reset release (R54), the index of
the next free value (the model's own field, log entry 2), and the queue of waiting commands, first in first out. -/
structure State where
  phase : Phase
  elapsed : Nat
  geometry : Nat
  settings : Settings
  key : StaffKey
  feed : FeedReceiver
  unpacker : Unpacker
  results : ResultSender
  time : Timekeeper
  board : BoardState
  table : Table
  dir : Directory
  paint : Paint
  frame : FrameStore
  freeIndex : Nat
  pending : List Instr
deriving DecidableEq, Repr

/-- The part raises no fault: the manual gives every command an outcome in every state (log entry 4). Closed and without
constructors, so no claim can rest on one (safe). -/
inductive Fault
deriving DecidableEq, Repr

/-- Why a command is refused by the model. -/
inductive Refusal where
  /-- Raised by `exec`'s arm of a command that has no meaning yet; no command of this model is left so. Safe: the model
  stops where the part goes on. -/
  | notModelled (mnemonic : String)
deriving DecidableEq, Repr

/-! ### Values at reset, block by block -/

/-- The empty Service Table (R6, R54). -/
def Table.reset : Table :=
  { slots := List.replicate 96 none, order := [], window := .closed }

/-- The Timekeeper after power-on and the reset line (R31, R32, R35, R37, R49). -/
def Timekeeper.reset : Timekeeper :=
  { minute := 0, second := 0, milli := 0, valid := false, inconsistent := 0, now := 0, rollHold := false,
    freshness := .fresh, freshTimer := 0 }

/-- The directory of a new part, scanning: storage blank, marks clear, every sector unlocked, counts 0 (R69, R71, R75). -/
def Directory.reset : Directory :=
  { storage := [], eraseMarks := [], lockFlags := [], slotStates := [], counts := [], locks := [], op := .scanning }

/-- The Paint Engine after each of the three resets (R146), on a board of `lines` lines. -/
def Paint.reset (lines : Nat) : Paint :=
  { dirty := [], callingStep := false, clockRequest := false, bannerCompose := false, bannerStep := false,
    lastGranted := .banner, job := none, hold := .free, banner := none, callingScroll := .still,
    bannerScroll := .still, suspendRequest := false, bankA := some .scan, bankB := some .scan,
    layouts := List.replicate lines .none }

/-- The Frame Store after power-on and the reset line: every shown image dark, no pending image, blank asserted (R148,
R152). -/
def FrameStore.reset (code : Nat) : FrameStore :=
  { shown := List.replicate (boardLines code) (darkImage code), pending := List.replicate (boardLines code) none,
    refreshTimer := 0, shift := none, blank := true,
    panels := List.replicate (moduleCount code) (List.replicate 512 false) }

/-- The Feed Receiver after power-on and the reset line: held, in HUNTING (R163, R173). -/
def FeedReceiver.reset : FeedReceiver :=
  { held := true, started := false, alignment := .hunting [], position := none, sighting := none, gathered := [], lastRecord := none,
    candidate := none, station := .normal, lossCount := 0 }

/-- The Message Unpacker after each of the three resets (R174). -/
def Unpacker.reset : Unpacker :=
  { state := .searching, buffer := [], badCount := 0 }

/-- The Result Sender after power-on and the reset line (R171, R172, R182, R184, R190). -/
def ResultSender.reset : ResultSender :=
  { queue := [], lost := false, frame := 0, octet := 0, overhead := [], record := [], line := none }

/-- The part right after power-on, before reset release: every block at its reset value on a new part, nothing waiting.
RESET_RELEASE starts it (log entry 3). -/
def State.reset : State :=
  { phase := .inReset, elapsed := 0, geometry := 0, settings := Settings.default,
    key := { input := false, timer := none, asserted := false }, feed := FeedReceiver.reset,
    unpacker := Unpacker.reset, results := ResultSender.reset, time := Timekeeper.reset, board := .starting,
    table := Table.reset, dir := Directory.reset, paint := Paint.reset (boardLines 0), frame := FrameStore.reset 0,
    freeIndex := 0, pending := [] }

end Sys2Proof.Machine
end

