-- ==== Sys2Proof/Machine/Update.lean ====
section
/-! DEFINITION. One update a block of the State: each replaces its own field and leaves the others (the lemmas stand in
Laws/State.lean). -/

namespace Sys2Proof.Machine

def State.withPhase (s : State) (v : Phase) : State := { s with phase := v }
def State.withElapsed (s : State) (v : Nat) : State := { s with elapsed := v }
def State.withGeometry (s : State) (v : Nat) : State := { s with geometry := v }
def State.withSettings (s : State) (v : Settings) : State := { s with settings := v }
def State.withKey (s : State) (v : StaffKey) : State := { s with key := v }
def State.withFeed (s : State) (v : FeedReceiver) : State := { s with feed := v }
def State.withUnpacker (s : State) (v : Unpacker) : State := { s with unpacker := v }
def State.withResults (s : State) (v : ResultSender) : State := { s with results := v }
def State.withTime (s : State) (v : Timekeeper) : State := { s with time := v }
def State.withBoard (s : State) (v : BoardState) : State := { s with board := v }
def State.withTable (s : State) (v : Table) : State := { s with table := v }
def State.withDir (s : State) (v : Directory) : State := { s with dir := v }
def State.withPaint (s : State) (v : Paint) : State := { s with paint := v }
def State.withFrame (s : State) (v : FrameStore) : State := { s with frame := v }
def State.withFreeIndex (s : State) (v : Nat) : State := { s with freeIndex := v }
def State.withPending (s : State) (v : List Instr) : State := { s with pending := v }

end Sys2Proof.Machine
end

