-- ==== Sys2Proof/Machine/FrameStore.lean ====
section
/-! DEFINITION. The refresh, the shift to the module chain and the blank output (sections 7.2 and 7.3). -/

namespace Sys2Proof.Machine

/-- The period of the refresh timer in ms (R150). -/
def refreshMs : Nat := 10

/-- The 512 pixels of chain module `k`: line k / M, module column k mod M, row 0 first, each row from its leftmost column
(R151). -/
def moduleBlock (code : Nat) (shown : List (List Column)) (k : Nat) : List Bool :=
  let columns := ((shown.getD (k / modulesAcross code) []).drop (32 * (k % modulesAcross code))).take 32
  (List.range 16).flatMap (fun row => columns.map (fun c => c.getLsbD row))

/-- The module blocks of a frame in the order sent: the last module of the chain first (R151). -/
def shiftBlocks (code : Nat) (shown : List (List Column)) : List (List Bool) :=
  ((List.range (moduleCount code)).map (moduleBlock code shown)).reverse

/-- The time of a shift in ns: 512 pixels a module at 12.5 MHz, 80 ns each (R151). -/
def shiftTime (code : Nat) : Int :=
  (moduleCount code * 512 * 80 : Nat)

/-- The refresh (R150): pending images become shown, and the shift of the frame begins with the board state read for its
blanking (R151, R152). -/
def refreshFrame (s : State) : State :=
  let shown := List.zipWith (fun (image : List Column) p => p.getD image) s.frame.shown s.frame.pending
  s.withFrame { s.frame with
    shown := shown
    pending := s.frame.pending.map (fun _ => none)
    refreshTimer := 0
    shift := some { blocks := shiftBlocks s.geometry shown, dark := decide (s.board = .dark),
                    remaining := shiftTime s.geometry } }

/-- The shift ends: every module latches its block at once, and the blank output follows the board state the refresh read
(R151, R152). -/
def latchShift (s : State) : State :=
  match s.frame.shift with
  | some sh => s.withFrame { s.frame with shift := none, panels := sh.blocks.reverse, blank := sh.dark }
  | none => s

end Sys2Proof.Machine
end

