-- ==== Sys2Proof/Machine/Sets.lean ====
section
/-! DEFINITION. Finite sets of numbers as strictly rising lists, and tables over place numbers as sorted lists of the
entries that differ from a default, each in one canonical form. -/

namespace Sys2Proof.Machine

/-! ### Sets of numbers -/

/-- Add a number to a set. -/
def setInsert (a : Nat) : List Nat → List Nat
  | [] => [a]
  | b :: r => if a < b then a :: b :: r else if a = b then b :: r else b :: setInsert a r

/-- Add every number of a list to a set. -/
def setInsertAll (l s : List Nat) : List Nat :=
  l.foldl (fun acc a => setInsert a acc) s

/-- The members of `s` that are not in `l`. -/
def setRemoveAll (l s : List Nat) : List Nat :=
  s.filter (fun a => !l.contains a)

/-- The bit mask of a set: bit `n` stands for `n` (R179, R184). -/
def maskOf (s : List Nat) : Nat :=
  s.foldr (fun n m => 2 ^ n ||| m) 0

/-- The set an octet's bits stand for (R179). -/
def setOfMask (m : Byte) : List Nat :=
  (List.range 8).filter (fun n => m.getLsbD n)

/-! ### Tables over place numbers -/

/-- What a table holds at an address: the default where it lists nothing. -/
def cellGet {α : Type} (d : α) : List (Nat × α) → Nat → α
  | [], _ => d
  | (b, v) :: r, a => if a = b then v else cellGet d r a

/-- Store a value at an address, keeping the canonical form: storing the default removes the entry. -/
def cellSet {α : Type} [DecidableEq α] (d : α) : List (Nat × α) → Nat → α → List (Nat × α)
  | [], a, v => if v = d then [] else [(a, v)]
  | (b, w) :: r, a, v =>
    if a < b then (if v = d then (b, w) :: r else (a, v) :: (b, w) :: r)
    else if a = b then (if v = d then r else (a, v) :: r)
    else (b, w) :: cellSet d r a v

/-- Return every address of `lo..hi−1` to the default. -/
def cellClear {α : Type} (lo hi : Nat) (m : List (Nat × α)) : List (Nat × α) :=
  m.filter (fun c => !(decide (lo ≤ c.1) && decide (c.1 < hi)))

/-- Store one value at each of `n` addresses from `lo`. -/
def cellFill {α : Type} [DecidableEq α] (d : α) (lo n : Nat) (v : α) (m : List (Nat × α)) : List (Nat × α) :=
  (List.range n).foldl (fun acc i => cellSet d acc (lo + i) v) m

/-- The canonical form: addresses strictly rising from `lo`, below `hi`, and no entry equal to the default. -/
def cellsFrom {α : Type} [DecidableEq α] (d : α) (hi : Nat) : Nat → List (Nat × α) → Bool
  | _, [] => true
  | lo, (a, v) :: r => decide (lo ≤ a) && decide (a < hi) && decide (v ≠ d) && cellsFrom d hi (a + 1) r

end Sys2Proof.Machine
end

