-- ==== Sys2Proof/Machine/Flags.lean ====
section
/-! DEFINITION. Line marks, requests, line ownership, and the board state with what its change sets off (sections 1.11,
6.1, 6.2, 6.5, 7.4). -/

namespace Sys2Proof.Machine

/-! ### Marks -/

/-- L, R and W of the board as it stands. -/
def State.lines (s : State) : Nat := boardLines s.geometry
def State.shownCount (s : State) : Nat := shownPositions s.geometry
def State.columns (s : State) : Nat := boardWidth s.geometry

/-- Add lines to the dirty line set (R126). -/
def markLines (ls : List Nat) (s : State) : State :=
  s.withPaint { s.paint with dirty := setInsertAll ls s.paint.dirty }

/-- Lines 0 to L − 2 (R126, R155). -/
def tableLines (s : State) : List Nat :=
  List.range (s.lines - 1)

/-- The departure lines: line 0 and lines 2 to L − 2 (R39, R121). -/
def departureLines (s : State) : List Nat :=
  (tableLines s).filter (fun n => n != 1)

/-- Raise the clock request (R124, R132). -/
def raiseClock (s : State) : State :=
  s.withPaint { s.paint with clockRequest := true }

/-! ### Line ownership -/

/-- The line the banner owns, if a banner is set and the board state gives it one (R125). -/
def bannerLine (s : State) : Option Nat :=
  match s.paint.banner, s.board with
  | some _, .showing => some (s.lines - 1)
  | some _, .alert => some 1
  | _, _ => none

/-- The slot a line belongs to (R125). -/
def ownerOf (s : State) (line : Nat) : Slot :=
  if bannerLine s = some line then .banner
  else if line = s.lines - 1 then .clock
  else .table

/-! ### Scrolls -/

/-- Stop a scroll: STILL, its strip, offset, pause and step timer discarded and its pending step cleared (R137). -/
def stopScroll (which : ScrollId) (s : State) : State :=
  match which with
  | .calling => s.withPaint { s.paint with callingScroll := .still, callingStep := false }
  | .banner => s.withPaint { s.paint with bannerScroll := .still, bannerStep := false }

/-! ### The running job and its line -/

/-- The line a job composes for, and the slot it must belong to for the job to place (R130). -/
def Job.target (s : State) : Job → Option (Nat × Slot)
  | .table line _ => some (line, .table)
  | .callingStep _ => some (1, .table)
  | .clock _ => some (s.lines - 1, .clock)
  | .bannerCompose (some (line, _)) => some (line, .banner)
  | .bannerStep (some (line, _)) => some (line, .banner)
  | .bannerCompose none => none
  | .bannerStep none => none

/-- A job that will place nothing. -/
def Job.void : Job → Job
  | .table line _ => .table line none
  | .callingStep _ => .callingStep none
  | .clock _ => .clock none
  | .bannerCompose _ => .bannerCompose none
  | .bannerStep _ => .bannerStep none

/-- After a change of ownership: a running job whose line no longer belongs to its slot places nothing (R130, R139,
R159). -/
def revokeJob (s : State) : State :=
  match s.paint.job with
  | none => s
  | some j =>
    match j.target s with
    | some (line, slot) =>
      if ownerOf s line = slot then s else s.withPaint { s.paint with job := some j.void }
    | none => s

/-! ### The board state -/

/-- The board state the three inputs give: the first row that applies (R154). -/
def deriveBoard (station : StationState) (freshness : Freshness) (valid : Bool) : BoardState :=
  if station = .dark then .dark
  else if station = .alert then .alert
  else if freshness = .lapsed then .unavailable
  else if valid = false then .starting
  else if station = .closed then .closed
  else .showing

/-- The banner's part in a change of line from `before` to now (R137, R140, R155): its scroll stops when its line changes
or is lost, its compose is raised while it owns a line and cleared when it owns none. -/
def rehomeBanner (before : Option Nat) (s : State) : State :=
  let now := bannerLine s
  let s := if now = before then s else stopScroll .banner s
  s.withPaint { s.paint with bannerCompose := now.isSome }

/-- The calling scroll stops when line 1 passes to the banner (R137). -/
def yieldCallingLine (before : Option Nat) (s : State) : State :=
  if bannerLine s = some 1 && before != some 1 then stopScroll .calling s else s

/-- A change of board state, whole (R155). It is also how the first state after a reset reaches the Paint Engine (R126). -/
def applyBoard (new : BoardState) (s : State) : State :=
  let before := bannerLine s
  let s := s.withBoard new
  let s := markLines (tableLines s) s
  let s := raiseClock s
  let s := rehomeBanner before s
  let s := yieldCallingLine before s
  revokeJob s

/-- The Selector derives the state from its inputs; if it equals the state held nothing follows (R154). -/
def selectBoard (s : State) : State :=
  let new := deriveBoard s.feed.station s.time.freshness s.time.valid
  if new = s.board then s else applyBoard new s

/-- The first derivation after a reset, compared with nothing and taken as a change (R126, R158). -/
def selectFirst (s : State) : State :=
  applyBoard (deriveBoard s.feed.station s.time.freshness s.time.valid) s

end Sys2Proof.Machine
end

