-- ==== Sys2Proof/Machine/Codec.lean ====
section
/-! DEFINITION. Octets and numbers: high octet first (section 4), two's complement, and the CRC of R175. -/

namespace Sys2Proof.Machine

/-- The low eight bits of a number as an octet. -/
def octet1 (n : Nat) : Byte :=
  BitVec.ofNat 8 n

/-- A number as two octets, high octet first. -/
def octets2 (n : Nat) : List Byte :=
  [octet1 (n / 256), octet1 (n % 256)]

/-- A signed number as two octets, two's complement (R179, R184). -/
def signed2 (i : Int) : List Byte :=
  octets2 (i % 65536).toNat

/-- Two octets read as an unsigned number. -/
def number2 (hi lo : Byte) : Nat :=
  256 * hi.toNat + lo.toNat

/-- Two octets read in two's complement (R179). -/
def integer2 (hi lo : Byte) : Int :=
  if number2 hi lo < 32768 then (number2 hi lo : Int) else (number2 hi lo : Int) - 65536

/-- Yes-or-no as an octet: 1 for yes, 0 for no (R184). -/
def yesNo (b : Bool) : Byte :=
  if b then 1 else 0

/-- A presence octet and, when present, the item (R184). -/
def present {α : Type} (f : α → List Byte) : Option α → List Byte
  | none => [0]
  | some a => 1 :: f a

/-- A text: a count octet, then its glyph codes (R179). -/
def textOctets (t : Text) : List Byte :=
  octet1 t.length :: t

/-- One bit of the CRC: shift left and reduce by x^16 + x^12 + x^5 + 1 (R175). -/
def crcShift (c : BitVec 16) : BitVec 16 :=
  if c.msb then (c <<< 1) ^^^ 0x1021#16 else c <<< 1

/-- One octet into the CRC, most significant bit first (R175). -/
def crcOctet (c : BitVec 16) (b : Byte) : BitVec 16 :=
  crcShift (crcShift (crcShift (crcShift (crcShift (crcShift (crcShift (crcShift
    (c ^^^ (b.setWidth 16 <<< 8)))))))))

/-- The CRC of a run of octets, from the initial value 0xFFFF (R175). -/
def crc16 (l : List Byte) : BitVec 16 :=
  l.foldl crcOctet 0xFFFF#16

/-- The two CRC octets, high octet first (R175). -/
def crcOctets (l : List Byte) : List Byte :=
  octets2 (crc16 l).toNat

/-- The octet that makes a sum of octets 0 modulo 256 (R169, R172). -/
def checkOctet (l : List Byte) : Byte :=
  0 - l.foldl (· + ·) 0

end Sys2Proof.Machine
end

