-- ==== Sys2Proof/Config.lean ====
section
/-! DEFINITION. What the manual leaves open: values no proof can see. -/

namespace Sys2Proof

/-- The two fonts of the part (R99). -/
inductive Font where
  | large
  | small
deriving DecidableEq, Repr

/-- The glyph patterns, "fixed in the part" (R99) and given nowhere in the manual: for a font, a glyph code and a
column of its cell, the lit rows. A free value (log entry 1); rows outside the font's cell are masked off where it is
used. -/
opaque Config.glyphPattern : Font → Byte → Nat → Column

/-- Which of the two lock sets a lock change cut by a reset leaves in storage: `true` for the set it would have made
(R74, R92). A free value, read at a fresh index each time (log entry 2). -/
opaque Config.lockCutTakesNew : Nat → Bool

end Sys2Proof
end

