-- ==== Sys2Proof/Machine/Text.lean ====
section
/-! DEFINITION. Fonts, the width of a text, and setting a text into a line image (section 5.2). -/

namespace Sys2Proof.Machine

/-- The glyph codes of a run of characters. -/
def glyphs (s : String) : Text :=
  s.toList.map (fun c => BitVec.ofNat 8 c.toNat)

/-- The space glyph. -/
def spaceGlyph : Byte := 0x20

/-- Whether a code is one of the glyph codes 0x20..0x7E (R99). -/
def isGlyph (b : Byte) : Bool :=
  decide (0x20 ≤ b.toNat) && decide (b.toNat ≤ 0x7E)

/-! ### Widths -/

/-- The members of class Thin: . , : ; ' ! (R100). -/
def thinGlyphs : List Nat := [0x2E, 0x2C, 0x3A, 0x3B, 0x27, 0x21]

/-- The members of class Narrow: i j l I ( ) and the square brackets (R100). -/
def narrowGlyphs : List Nat := [0x69, 0x6A, 0x6C, 0x49, 0x28, 0x29, 0x5B, 0x5D]

/-- The members of class Medium: f r t - / & (R100). -/
def mediumGlyphs : List Nat := [0x66, 0x72, 0x74, 0x2D, 0x2F, 0x26]

/-- The members of class Wide: m w M W (R100). -/
def wideGlyphs : List Nat := [0x6D, 0x77, 0x4D, 0x57]

/-- The width of a glyph in columns, by its class and the font (R100). Digits and ordinary codes have the same widths. -/
def glyphWidth (f : Font) (c : Byte) : Nat :=
  let pick := fun (large small : Nat) => match f with
    | .large => large
    | .small => small
  if thinGlyphs.contains c.toNat then pick 2 1
  else if narrowGlyphs.contains c.toNat then pick 3 2
  else if c = spaceGlyph then pick 4 3
  else if mediumGlyphs.contains c.toNat then pick 5 3
  else if wideGlyphs.contains c.toNat then pick 8 5
  else pick 6 4

/-- The width of a text: its glyphs' widths and one gap column between each adjacent pair (R101). -/
def textWidth (f : Font) (t : Text) : Nat :=
  (t.map (glyphWidth f)).sum + (t.length - 1)

/-! ### Columns -/

/-- The rows a font's cell occupies: large rows 2 to 12, small rows 5 to 11 (R99). -/
def fontRows : Font → Column
  | .large => 0x1FFC
  | .small => 0x0FE0

/-- The columns of one glyph: as many as its width, lit only within the font's cell; the space glyph is dark (R99). -/
def glyphColumns (f : Font) (c : Byte) : List Column :=
  (List.range (glyphWidth f c)).map
    (fun i => if c = spaceGlyph then 0 else Config.glyphPattern f c i &&& fontRows f)

/-- The columns of a text: its glyphs with one dark gap column between each adjacent pair (R101). -/
def textColumns (f : Font) : Text → List Column
  | [] => []
  | [c] => glyphColumns f c
  | c :: d :: r => glyphColumns f c ++ 0 :: textColumns f (d :: r)

/-- Set a run of columns into an image from a start column, keeping the image's width (R98). -/
def setColumns (start : Nat) (cols image : List Column) : List Column :=
  (image.take start ++ cols ++ image.drop (start + cols.length)).take image.length

/-- Where a text of width `w` starts when centred in a field of `size` columns from `field` (R102). -/
def centredStart (field size w : Nat) : Nat :=
  field + (size - w) / 2

/-- Where a text of width `w` starts when right-aligned in a field of `size` columns from `field` (R102). -/
def rightStart (field size w : Nat) : Nat :=
  field + size - w

/-- A text set into an image in a font from a start column. -/
def setText (f : Font) (start : Nat) (t : Text) (image : List Column) : List Column :=
  setColumns start (textColumns f t) image

/-- The window of a strip at an offset: frame column x holds strip column x + o, dark outside the strip (R133). -/
def stripWindow (code : Nat) (strip : List Column) (offset : Int) : List Column :=
  (List.range (boardWidth code)).map (fun (x : Nat) =>
    let column : Int := x + offset
    if column < 0 then 0 else strip.getD column.toNat 0)

/-! ### Numbers in texts -/

/-- A digit's glyph code. -/
def digitGlyph (n : Nat) : Byte :=
  BitVec.ofNat 8 (48 + n % 10)

/-- A number below 100 in decimal, one or two digits (R46, R111). -/
def decimalText (n : Nat) : Text :=
  if n < 10 then [digitGlyph n] else [digitGlyph (n / 10), digitGlyph n]

/-- A clock minute printed as hh:mm (R38, R117). -/
def clockText (minute : Nat) : Text :=
  [digitGlyph (minute / 60 / 10), digitGlyph (minute / 60), 0x3A, digitGlyph (minute % 60 / 10),
    digitGlyph (minute % 60)]

end Sys2Proof.Machine
end

