-- ==== Sys2Proof/Machine/Operands.lean ====
section
/-! DEFINITION. The parameters of messages: the owners' range checks, the kind codes, and the structure check that reads
the parameters octet by octet (R177 to R179). -/

namespace Sys2Proof.Machine

/-! ### Range checks -/

/-- A key names a service when it lies in 1..65535 (R1). -/
def keyOK (k : Nat) : Bool :=
  decide (0 < k) && decide (k < 65536)

/-- A character of a platform code: 0–9 or A–Z (R1). -/
def platformChar (b : Byte) : Bool :=
  (decide (0x30 ≤ b.toNat) && decide (b.toNat ≤ 0x39)) || (decide (0x41 ≤ b.toNat) && decide (b.toNat ≤ 0x5A))

/-- A platform code: 1..3 such characters (R1). -/
def platformOK (t : Text) : Bool :=
  decide (0 < t.length) && decide (t.length ≤ 3) && t.all platformChar

/-- The running state a code stands for (R179). -/
def runStateOf (n : Nat) : Option RunState :=
  match n with
  | 0 => some .scheduled
  | 1 => some .estimated
  | 2 => some .unknownDelay
  | 3 => some .cancelled
  | _ => none

/-- The code of a running state (R179). -/
def runStateCode : RunState → Nat
  | .scheduled => 0
  | .estimated => 1
  | .unknownDelay => 2
  | .cancelled => 3

/-- The nearest end of −30..+999 for a delay outside it (R8). -/
def clampDelay (d : Int) : Int :=
  max (-30) (min d 999)

/-- Whether a delay, if given, lies outside −30..+999 (R8). -/
def delayClamped (d : Option Int) : Bool :=
  match d with
  | none => false
  | some d => decide (clampDelay d ≠ d)

/-- The places a POST or a record names, in the order of R10: destination, via, then each stop. -/
def namedPlaces (destination : Nat) (via : Option Nat) (stops : List Stop) : List Nat :=
  destination :: (via.toList ++ stops.map Stop.place)

/-- The field checks of POST SERVICE (R9). -/
def postFieldsOK (f : PostFields) : Bool :=
  keyOK f.key && decide (0 ≤ f.scheduled) && decide (f.scheduled ≤ 1799) && (runStateOf f.state).isSome
    && platformOK f.platform && (namedPlaces f.destination f.via f.stops).all (fun p => decide (p < 1024))
    && decide (f.stops.length ≤ 24)
    && (match f.train with
        | none => true
        | some n => decide (1 ≤ n) && decide (n ≤ 16))
    && !(decide (runStateOf f.state = some .estimated) && f.delay.isNone)

/-- The indices of a skip or restore list; an absent list holds none. -/
def indexList (l : Option (List Nat)) : List Nat :=
  l.getD []

/-- The field checks of AMEND SERVICE (R15). -/
def amendFieldsOK (f : AmendFields) : Bool :=
  keyOK f.key
    && (match f.state with
        | none => true
        | some n => (runStateOf n).isSome)
    && (match f.platform with
        | none => true
        | some t => platformOK t)
    && decide (f.train.getD 0 ≤ 16)
    && decide ((indexList f.skip).length ≤ 24) && decide ((indexList f.restore).length ≤ 24)
    && (indexList f.skip).all (fun i => !(indexList f.restore).contains i)

/-- A name of 1..`most` glyphs (R69). -/
def nameOK (most : Nat) (t : Text) : Bool :=
  decide (0 < t.length) && decide (t.length ≤ most) && t.all isGlyph

/-- A place code: three characters, each A–Z (R69). -/
def placeCodeOK (t : Text) : Bool :=
  decide (t.length = 3) && t.all (fun b => decide (0x41 ≤ b.toNat) && decide (b.toNat ≤ 0x5A))

/-- An entry within the ranges of R69: the check of WRITE PLACE (R76) and the well-formedness of the scan (R93). -/
def entryOK (e : PlaceEntry) : Bool :=
  nameOK 32 e.full && (match e.short with
    | none => true
    | some t => nameOK 14 t) && placeCodeOK e.code

/-- The field checks of WRITE PLACE (R76). -/
def writeFieldsOK (f : WriteFields) : Bool :=
  decide (f.place < 1024) && entryOK f.entry

/-- The field checks of SET BANNER (R138). -/
def bannerFieldsOK (f : BannerFields) : Bool :=
  nameOK 160 f.text && decide (f.duration ≤ 3600)

/-! ### Kind and outcome codes (R178) -/

def kindPost : Byte := 0x01
def kindAmend : Byte := 0x02
def kindRetire : Byte := 0x03
def kindClear : Byte := 0x04
def kindHold : Byte := 0x05
def kindRelease : Byte := 0x06
def kindSetBanner : Byte := 0x07
def kindClearBanner : Byte := 0x08
def kindWrite : Byte := 0x10
def kindErase : Byte := 0x11
def kindSuspend : Byte := 0x12
def kindResume : Byte := 0x13
def kindLock : Byte := 0x14
def kindFree : Byte := 0x15
def kindReadService : Byte := 0x20
def kindReadPlace : Byte := 0x21
def kindReadBoard : Byte := 0x22
def kindSetBoard : Byte := 0x30
def kindRestart : Byte := 0x31

def outDone : Nat := 0
def outAdjusted : Nat := 1
def outTableFull : Nat := 2
def outNoSuchService : Nat := 3
def outStaleRevision : Nat := 4
def outServiceLeaving : Nat := 5
def outOutOfRange : Nat := 6
def outPlaceUnknown : Nat := 7
def outPlaceUnavailable : Nat := 8
def outDirectoryBusy : Nat := 9
def outSectorLocked : Nat := 10
def outSlotNotBlank : Nat := 11
def outPlaceInUse : Nat := 12
def outEraseAbandoned : Nat := 13
def outWriteFailed : Nat := 14
def outNotSuspended : Nat := 15
def outKeyRequired : Nat := 16
def outNotHeld : Nat := 17
def outHoldLapsed : Nat := 18
def outTableNotEmpty : Nat := 19
def outUnknownKind : Nat := 20

/-! ### Reading parameters (R179) -/

/-- A message as the structure check reads it, for its owner. -/
inductive Message where
  | post (f : PostFields)
  | amend (f : AmendFields)
  | retire (key : Nat)
  | clearBoard
  | holdBoard
  | releaseBoard
  | setBanner (f : BannerFields)
  | clearBanner
  | writePlace (f : WriteFields)
  | eraseSector (sector : Nat)
  | suspendErase
  | resumeErase
  | lockSectors (sectors : Byte)
  | freeSectors (sectors : Byte)
  | readService (key : Nat)
  | readPlace (place : Nat)
  | readBoard
  | setBoard (f : BoardFields)
  | restart
deriving DecidableEq, Repr

/-- A parameter reader: the item read and the octets left, or none when the octets end too soon. -/
abbrev Reader (α : Type) := List Byte → Option (α × List Byte)

/-- One octet. -/
def readOctet : Reader Byte
  | [] => none
  | b :: r => some (b, r)

/-- One octet as an unsigned number. -/
def readNumber1 : Reader Nat
  | [] => none
  | b :: r => some (b.toNat, r)

/-- Two octets as an unsigned number. -/
def readNumber2 : Reader Nat
  | hi :: lo :: r => some (number2 hi lo, r)
  | _ => none

/-- Two octets in two's complement. -/
def readInteger2 : Reader Int
  | hi :: lo :: r => some (integer2 hi lo, r)
  | _ => none

/-- A run of `n` octets. -/
def readOctets (n : Nat) : Reader Text := fun l =>
  if n ≤ l.length then some (l.take n, l.drop n) else none

/-- A count octet, then that many octets. -/
def readText : Reader Text
  | [] => none
  | n :: r => readOctets n.toNat r

/-- `n` items one after another. -/
def readMany {α : Type} (f : Reader α) : Nat → Reader (List α)
  | 0, l => some ([], l)
  | n + 1, l =>
    match f l with
    | none => none
    | some (a, r) =>
      match readMany f n r with
      | none => none
      | some (as, r') => some (a :: as, r')

/-- A count octet, then that many items. -/
def readList {α : Type} (f : Reader α) : Reader (List α)
  | [] => none
  | n :: r => readMany f n.toNat r

/-- A calling stop: place number, then a flags octet. -/
def readStop : Reader Stop
  | hi :: lo :: flags :: r =>
    some ({ place := number2 hi lo, request := flags.getLsbD 0, skipped := flags.getLsbD 1 }, r)
  | _ => none

/-- An on-or-off octet: 0 off, any other value on (R186). -/
def readSwitch : Reader Bool
  | [] => none
  | b :: r => some (b != 0, r)

/-- An item present only when its mask bit is set. -/
def readIf {α : Type} (present : Bool) (f : Reader α) : Reader (Option α) := fun l =>
  if present then (match f l with
    | none => none
    | some (a, r) => some (some a, r))
  else some (none, l)

/-- The value read when the parameters end at the last octet, none left over (R177). -/
def whole {α : Type} (r : Option (α × List Byte)) : Option α :=
  match r with
  | some (a, []) => some a
  | _ => none

/-- POST SERVICE (R179). -/
def readPost (l : List Byte) : Option PostFields := do
  let (mask, l) ← readOctet l
  let (key, l) ← readNumber2 l
  let (revision, l) ← readOctet l
  let (scheduled, l) ← readInteger2 l
  let (state, l) ← readNumber1 l
  let (platform, l) ← readText l
  let (destination, l) ← readNumber2 l
  let (delay, l) ← readIf (mask.getLsbD 0) readInteger2 l
  let (via, l) ← readIf (mask.getLsbD 1) readNumber2 l
  let (stops, l) ← readList readStop l
  let (train, l) ← readIf (mask.getLsbD 2) readNumber1 l
  if decide (mask.toNat < 8) && l.isEmpty then
    some { key, revision, scheduled, state, platform, destination, delay, via, stops, train }
  else none

/-- AMEND SERVICE (R179). -/
def readAmend (l : List Byte) : Option AmendFields := do
  let (mask, l) ← readOctet l
  let (key, l) ← readNumber2 l
  let (revision, l) ← readOctet l
  let (delay, l) ← readIf (mask.getLsbD 0) readInteger2 l
  let (state, l) ← readIf (mask.getLsbD 1) readNumber1 l
  let (platform, l) ← readIf (mask.getLsbD 2) readText l
  let (train, l) ← readIf (mask.getLsbD 3) readNumber1 l
  let (skip, l) ← readIf (mask.getLsbD 4) (readList readNumber1) l
  let (restore, l) ← readIf (mask.getLsbD 5) (readList readNumber1) l
  if decide (mask.toNat < 64) && l.isEmpty then
    some { key, revision, delay, state, platform, train, skip, restore }
  else none

/-- WRITE PLACE (R179). -/
def readWrite (l : List Byte) : Option WriteFields := do
  let (mask, l) ← readOctet l
  let (place, l) ← readNumber2 l
  let (full, l) ← readText l
  let (short, l) ← readIf (mask.getLsbD 0) readText l
  let (code, l) ← readOctets 3 l
  if decide (mask.toNat < 2) && l.isEmpty then some { place, entry := { full, short, code } } else none

/-- SET BANNER (R179). -/
def readBanner (l : List Byte) : Option BannerFields := do
  let (text, l) ← readText l
  let (duration, l) ← readNumber2 l
  if l.isEmpty then some { text, duration } else none

/-- SET BOARD (R179, R186): the three-octet mask, high octet first, then each setting present in ascending bit order. -/
def readBoardFields (l : List Byte) : Option BoardFields := do
  let (m2, l) ← readOctet l
  let (m1, l) ← readOctet l
  let (m0, l) ← readOctet l
  let (filter, l) ← readIf (m0.getLsbD 0) (readList readText) l
  let (origin, l) ← readIf (m0.getLsbD 1) readNumber2 l
  let (sweepLength, l) ← readIf (m0.getLsbD 2) readNumber1 l
  let (holdover, l) ← readIf (m0.getLsbD 3) readNumber1 l
  let (holdLimit, l) ← readIf (m0.getLsbD 4) readNumber1 l
  let (countdown, l) ← readIf (m0.getLsbD 5) readNumber1 l
  let (lateThreshold, l) ← readIf (m0.getLsbD 6) readNumber1 l
  let (horizon, l) ← readIf (m0.getLsbD 7) readNumber2 l
  let (grace, l) ← readIf (m1.getLsbD 0) readNumber1 l
  let (dwell, l) ← readIf (m1.getLsbD 1) readNumber1 l
  let (scrollRate, l) ← readIf (m1.getLsbD 2) readNumber1 l
  let (scrollPause, l) ← readIf (m1.getLsbD 3) readNumber1 l
  let (scrollEnable, l) ← readIf (m1.getLsbD 4) readSwitch l
  let (clockEnable, l) ← readIf (m1.getLsbD 5) readSwitch l
  let (bannerEnable, l) ← readIf (m1.getLsbD 6) readSwitch l
  let (autoSuspend, l) ← readIf (m1.getLsbD 7) readSwitch l
  let (alignWindow, l) ← readIf (m2.getLsbD 0) readNumber1 l
  let (mimicCheck, l) ← readIf (m2.getLsbD 1) readSwitch l
  let (debounce, l) ← readIf (m2.getLsbD 2) readSwitch l
  let (smallFont, l) ← readIf (m2.getLsbD 3) readSwitch l
  if decide (m2.toNat < 16) && l.isEmpty then
    some { filter, origin, sweepLength, holdover, holdLimit, countdown, lateThreshold, horizon, grace, dwell,
           scrollRate, scrollPause, scrollEnable, clockEnable, bannerEnable, autoSuspend, alignWindow, mimicCheck,
           debounce, smallFont }
  else none

/-- The message when its kind has no parameters: none may stand (R179). -/
def readNothing (m : Message) (l : List Byte) : Option Message :=
  if l.isEmpty then some m else none

/-- The reader of a kind's parameters, or none for a code that is not in the kind table (R177 steps 1 and 2). -/
def kindReader (kind : Byte) : Option (List Byte → Option Message) :=
  if kind = kindPost then some (fun l => (readPost l).map .post)
  else if kind = kindAmend then some (fun l => (readAmend l).map .amend)
  else if kind = kindRetire then some (fun l => (whole (readNumber2 l)).map .retire)
  else if kind = kindClear then some (readNothing .clearBoard)
  else if kind = kindHold then some (readNothing .holdBoard)
  else if kind = kindRelease then some (readNothing .releaseBoard)
  else if kind = kindSetBanner then some (fun l => (readBanner l).map .setBanner)
  else if kind = kindClearBanner then some (readNothing .clearBanner)
  else if kind = kindWrite then some (fun l => (readWrite l).map .writePlace)
  else if kind = kindErase then some (fun l => (whole (readNumber1 l)).map .eraseSector)
  else if kind = kindSuspend then some (readNothing .suspendErase)
  else if kind = kindResume then some (readNothing .resumeErase)
  else if kind = kindLock then some (fun l => (whole (readOctet l)).map .lockSectors)
  else if kind = kindFree then some (fun l => (whole (readOctet l)).map .freeSectors)
  else if kind = kindReadService then some (fun l => (whole (readNumber2 l)).map .readService)
  else if kind = kindReadPlace then some (fun l => (whole (readNumber2 l)).map .readPlace)
  else if kind = kindReadBoard then some (readNothing .readBoard)
  else if kind = kindSetBoard then some (fun l => (readBoardFields l).map .setBoard)
  else if kind = kindRestart then some (readNothing .restart)
  else none

/-- Whether a kind is one of the three reads, which are answered as though the reply flag were set (R177). -/
def isReadKind (kind : Byte) : Bool :=
  kind == kindReadService || kind == kindReadPlace || kind == kindReadBoard

end Sys2Proof.Machine
end

