-- ==== Sys2Proof/Machine/Results.lean ====
section
/-! DEFINITION. Entering results: the queue of 16, the results-lost flag and the merging of reads (R181 to R183). -/

namespace Sys2Proof.Machine

/-- The most entries the result queue holds (R182). -/
def queueLimit : Nat := 16

/-- An entry joins at the tail, or finds 16 entries and is discarded with the results-lost flag set (R182). -/
def enqueue (e : Entry) (s : State) : State :=
  if s.results.queue.length < queueLimit then
    s.withResults { s.results with queue := s.results.queue ++ [e] }
  else s.withResults { s.results with lost := true }

/-- The result of a message, entered when its reply flag is set (R177, R181). -/
def answer (kind : Byte) (h : Header) (outcome detail : Nat) (s : State) : State :=
  if h.reply then enqueue (.result kind h.tag outcome detail) s else s

/-- The result of a refused read, entered whether or not the reply flag is set (R177, R183). -/
def answerRead (kind : Byte) (h : Header) (outcome detail : Nat) (s : State) : State :=
  enqueue (.result kind h.tag outcome detail) s

/-- Results of several messages with one outcome and detail, in the order of the list (R82; log entries 39 and 40 for R84
and R80). -/
def answerAll (kind : Byte) (hs : List Header) (outcome detail : Nat) (s : State) : State :=
  hs.foldl (fun acc h => answer kind h outcome detail acc) s

/-- Whether an entry is an accepted read of an object (R183). -/
def Entry.reads (o : ReadObject) : Entry → Bool
  | .read _ o' => decide (o' = o)
  | .result _ _ _ _ => false

/-- An entry under a new tag when it is the read of the object (R183). -/
def Entry.retag (o : ReadObject) (tag : Byte) : Entry → Entry
  | .read t o' => if o' = o then .read tag o' else .read t o'
  | e => e

/-- An accepted read: merged into a queued read of the same object, whose entry takes the new tag and keeps its place, or
entered at the tail (R181, R183). -/
def enqueueRead (tag : Byte) (o : ReadObject) (s : State) : State :=
  if s.results.queue.any (Entry.reads o) then
    s.withResults { s.results with queue := s.results.queue.map (Entry.retag o tag) }
  else enqueue (.read tag o) s

end Sys2Proof.Machine
end

