-- ==== Sys2Proof/Machine/Ops.lean ====
section
/-! DEFINITION. The shared operations on the Service Table: finding and ordering records, reference counts, a change of
the table with its marks, the sweep window and the sweep (sections 1.6, 1.10, 1.11, 3.1 to 3.3). -/

namespace Sys2Proof.Machine

/-! ### Records -/

/-- The records of the table, in slot order. -/
def recordsOf (slots : List (Option Record)) : List Record :=
  slots.filterMap id

/-- The record a key names, if it is present (R5). -/
def findRecord (key : Nat) (slots : List (Option Record)) : Option Record :=
  (recordsOf slots).find? (fun r => r.key == key)

/-- Apply a change to the record a key names, in its slot. -/
def mapRecord (key : Nat) (f : Record → Record) (slots : List (Option Record)) : List (Option Record) :=
  slots.map (fun o => o.map (fun r => if r.key = key then f r else r))

/-- Apply a change to every record, each in its slot. -/
def mapRecords (f : Record → Record) (slots : List (Option Record)) : List (Option Record) :=
  slots.map (fun o => o.map f)

/-- Put a record into the first free slot; none when no slot is free (R5, R11). -/
def insertRecord (r : Record) : List (Option Record) → Option (List (Option Record))
  | [] => none
  | none :: rest => some (some r :: rest)
  | some q :: rest => (insertRecord r rest).map (fun l => some q :: l)

/-- Whether a record is LIVE. -/
def Record.isLive (r : Record) : Bool :=
  decide (r.life = .live)

/-- The number of LEAVING records (R8, R68). -/
def leavingCount (slots : List (Option Record)) : Nat :=
  ((recordsOf slots).filter (fun r => !r.isLive)).length

/-- The order key (R4): scheduled + delay when ESTIMATED with a delay above 0, else the scheduled time. -/
def orderKey (r : Record) : Int :=
  match r.state, r.delay with
  | .estimated, some d => if 0 < d then r.scheduled + d else r.scheduled
  | _, _ => r.scheduled

/-- Whether a record is visible under a platform filter (R21). -/
def visibleUnder (filter : List Text) (r : Record) : Bool :=
  filter.isEmpty || filter.contains r.platform

/-- The code of a leave cause in a detail (R8). -/
def leaveCauseDetail : LeaveCause → Nat
  | .retired => 1
  | .timedOut => 2
  | .rolledOff => 3

/-! ### The running order -/

/-- Whether `a` stands before `b`: by order key, then scheduled time, then key (R22). -/
def recordBefore (a b : Record) : Bool :=
  decide (orderKey a < orderKey b) ||
    (decide (orderKey a = orderKey b) && (decide (a.scheduled < b.scheduled) ||
      (decide (a.scheduled = b.scheduled) && decide (a.key < b.key))))

/-- Insert a record at its place in an ordered list. -/
def orderInsert (r : Record) : List Record → List Record
  | [] => [r]
  | q :: rest => if recordBefore r q then r :: q :: rest else q :: orderInsert r rest

/-- Records sorted by R22. -/
def orderSort (l : List Record) : List Record :=
  l.foldr orderInsert []

/-- The running order: the keys of the visible records, sorted (R22). -/
def runningOrder (filter : List Text) (slots : List (Option Record)) : List Nat :=
  (orderSort ((recordsOf slots).filter (visibleUnder filter))).map Record.key

/-- The position of a key in a running order (R22). -/
def positionOf (key : Nat) (order : List Nat) : Option Nat :=
  order.findIdx? (fun k => k == key)

/-- A position as a detail gives it: 65535 when there is none (R8). -/
def positionDetail (s : State) (key : Nat) : Nat :=
  (positionOf key s.table.order).getD 65535

/-- The record at a position of the running order. -/
def recordAt (s : State) (position : Nat) : Option Record :=
  match s.table.order[position]? with
  | some key => findRecord key s.table.slots
  | none => none

/-! ### Dirty lines -/

/-- The first index at which two lists of keys differ, or one has ended (R24). -/
def firstChanged : List Nat → List Nat → Option Nat
  | [], [] => none
  | a :: x, b :: y => if a = b then (firstChanged x y).map (· + 1) else some 0
  | _, _ => some 0

/-- The lines from a first changed position on: none from R on, with line 1 when it is 0, through line L − 2 (R24). -/
def linesFrom (code position : Nat) : List Nat :=
  if shownPositions code ≤ position then []
  else (List.range (boardLines code - 1)).filter (fun n => position = 0 || decide (position < n))

/-- The lines of one position: 0 and 1 for position 0, p + 1 below R, none from R on (R22, R25). -/
def linesAt (code position : Nat) : List Nat :=
  if shownPositions code ≤ position then []
  else if position = 0 then [0, 1] else [position + 1]

/-- Whether two contents of a record differ in what the board shows: all fields but the key, the revision and the leave
cause (R25). -/
def shownChanged (a b : Record) : Bool :=
  decide (a.scheduled ≠ b.scheduled) || decide (a.state ≠ b.state) || decide (a.delay ≠ b.delay)
    || decide (a.platform ≠ b.platform) || decide (a.destination ≠ b.destination) || decide (a.via ≠ b.via)
    || decide (a.stops ≠ b.stops) || decide (a.train ≠ b.train) || (a.isLive != b.isLive)

/-- The lines of R24 for a change from one order to another. -/
def orderMarks (code : Nat) (before after : List Nat) : List Nat :=
  match firstChanged before after with
  | none => []
  | some p => linesFrom code p

/-- The lines of R25: those of each shown position whose record was held before and has changed. -/
def contentMarks (code : Nat) (before after : List (Option Record)) (order : List Nat) : List Nat :=
  (List.range (shownPositions code)).flatMap (fun p =>
    match order[p]? with
    | none => []
    | some key =>
      match findRecord key before, findRecord key after with
      | some a, some b => if shownChanged a b then linesAt code p else []
      | _, _ => [])

/-- A change of the records: the running order is recomputed and the lines of R24 and R25 are marked (R23). -/
def retable (slots : List (Option Record)) (s : State) : State :=
  let order := runningOrder s.settings.filter slots
  let marks := orderMarks s.geometry s.table.order order
    ++ contentMarks s.geometry s.table.slots slots order
  markLines marks (s.withTable { s.table with slots := slots, order := order })

/-! ### Reference counts -/

/-- The places a record references, one entry an appearance (R14). -/
def referencesOf (r : Record) : List Nat :=
  namedPlaces r.destination r.via r.stops

/-- +1 for each appearance (R14, R71). -/
def countUp (places : List Nat) (m : List (Nat × Nat)) : List (Nat × Nat) :=
  places.foldl (fun acc p => cellSet 0 acc p (cellGet 0 acc p + 1)) m

/-- −1 for each appearance (R14, R71). -/
def countDown (places : List Nat) (m : List (Nat × Nat)) : List (Nat × Nat) :=
  places.foldl (fun acc p => cellSet 0 acc p (cellGet 0 acc p - 1)) m

/-- The count changes of an event, applied by the directory in that event (R71). -/
def recount (f : List (Nat × Nat) → List (Nat × Nat)) (s : State) : State :=
  s.withDir { s.dir with counts := f s.dir.counts }

/-! ### The sweep window and the sweep -/

/-- A record that becomes LEAVING, with its cause (R53). -/
def Record.leave (cause : LeaveCause) (r : Record) : Record :=
  { r with life := .leaving cause }

/-- The window opens or restarts for a record that becomes LEAVING: with length t above 0, expiry t after now and, at an
opening, the cap 5 t after now; the expiry never passes the cap (R55, R56). -/
def touchWindow (s : State) : State :=
  let t := 1000 * s.settings.sweepLength
  if t = 0 then s
  else
    match s.table.window with
    | .closed => s.withTable { s.table with window := .opened (s.elapsed + t) (s.elapsed + 5 * t) }
    | .opened _ cap => s.withTable { s.table with window := .opened (min (s.elapsed + t) cap) cap }

/-- The slots without their LEAVING records (R59). -/
def keepLive (slots : List (Option Record)) : List (Option Record) :=
  slots.map (fun o => o.filter Record.isLive)

/-- The sweep (R59): remove every LEAVING record, release its references, close the window, and reorder with marks. -/
def sweep (s : State) : State :=
  let gone := (recordsOf s.table.slots).filter (fun r => !r.isLive)
  let s := recount (countDown (gone.flatMap referencesOf)) s
  let s := s.withTable { s.table with window := .closed }
  retable (keepLive s.table.slots) s

/-- With a window length of 0 the sweep follows in the event that made a record LEAVING (R57). -/
def sweepAtZero (left : Bool) (s : State) : State :=
  if left && s.settings.sweepLength == 0 then sweep s else s

end Sys2Proof.Machine
end

