-- ==== Sys2Proof/Machine/ServiceTable.lean ====
section
/-! DEFINITION. The Service Table's messages and the expiry of its window (chapters 1 and 3). -/

namespace Sys2Proof.Machine

/-! ### Places -/

/-- The directory's answer to a question about a place (R89). -/
inductive PlaceAnswer where
  | unavailable
  | unknown
  | usable
  | busy
deriving DecidableEq, Repr

/-- The erase set: that of the erase gathering, running or suspended (R75, R89). -/
def DirOp.eraseSet : DirOp → List Nat
  | .gathering e _ => e.set
  | .erasing e _ => e.set
  | .suspending e _ _ _ => e.set
  | .suspended e _ _ => e.set
  | .suspendedWriting e _ _ _ => e.set
  | .scanning => []
  | .ready => []
  | .writing _ => []
  | .locking _ => []

/-- The sector of a place (R69). -/
def sectorOf (place : Nat) : Nat := place / 128

/-- The RAM state of a slot (R70). -/
def slotState (d : Directory) (place : Nat) : SlotState :=
  cellGet .blank d.slotStates place

/-- The directory's answer about a place, from its RAM tables (R89). -/
def askPlace (d : Directory) (place : Nat) : PlaceAnswer :=
  if d.op = .scanning then .busy
  else if d.op.eraseSet.contains (sectorOf place) then .unavailable
  else if slotState d place = .valid then .usable
  else .unknown

/-- The first place that fails in a list, with its outcome and detail; none when every place is usable (R10). -/
def firstBadPlace (d : Directory) : List Nat → Option (Nat × Nat)
  | [] => none
  | p :: rest =>
    match askPlace d p with
    | .usable => firstBadPlace d rest
    | .busy => some (outDirectoryBusy, 0)
    | .unavailable => some (outPlaceUnavailable, p)
    | .unknown => some (outPlaceUnknown, p)

/-! ### POST SERVICE -/

/-- The record a POST gives: every field from the message, LIVE; a delay is clamped, and discarded with SCHEDULED or
UNKNOWN_DELAY (R8, R9, R11). -/
def postRecord (f : PostFields) : Record :=
  let state := (runStateOf f.state).getD .scheduled
  let delay := match state with
    | .scheduled => none
    | .unknownDelay => none
    | .estimated => f.delay.map clampDelay
    | .cancelled => f.delay.map clampDelay
  { key := f.key, revision := f.revision, scheduled := f.scheduled, state := state, delay := delay,
    platform := f.platform, destination := f.destination, via := f.via, stops := f.stops, train := f.train,
    life := .live }

/-- DONE, or ADJUSTED when a delay was clamped (R8). -/
def doneOrAdjusted (delay : Option Int) : Nat :=
  if delayClamped delay then outAdjusted else outDone

/-- The distance of R7, (new − old) mod 256, judged: newer for 1..127, duplicate for 0, else stale. -/
inductive RevisionJudgement where
  | newer
  | duplicate
  | stale
deriving DecidableEq, Repr

/-- The revision rule (R7). -/
def judgeRevision (new old : Byte) : RevisionJudgement :=
  let d := (new - old).toNat
  if d = 0 then .duplicate else if d ≤ 127 then .newer else .stale

/-- Replace or revive the record a key names: references of the old content out and of the new in, order and marks (R12,
R13, R14). The window is left as it was (R63). -/
def replaceRecord (old new : Record) (s : State) : State :=
  let s := recount (fun m => countUp (referencesOf new) (countDown (referencesOf old) m)) s
  retable (mapRecord old.key (fun _ => new) s.table.slots) s

/-- Create a record in given slots: references in, order and marks (R11, R14). -/
def createRecord (new : Record) (slots : List (Option Record)) (s : State) : State :=
  retable slots (recount (countUp (referencesOf new)) s)

/-- POST SERVICE of an absent key whose fields and places have passed: created in a free slot, after an early sweep when
no slot is free and the window is OPEN, or refused with TABLE_FULL (R11, R62). -/
def postCreate (h : Header) (f : PostFields) (s : State) : State :=
  let new := postRecord f
  let finish := fun (s : State) => answer kindPost h (doneOrAdjusted f.delay) (positionDetail s f.key) s
  match insertRecord new s.table.slots with
  | some slots => finish (createRecord new slots s)
  | none =>
    match s.table.window with
    | .closed => answer kindPost h outTableFull 96 s
    | .opened _ _ =>
      let s := sweep s
      match insertRecord new s.table.slots with
      | some slots => finish (createRecord new slots s)
      | none => answer kindPost h outTableFull 96 s

/-- POST SERVICE (R9 to R13): field checks, then the revision of a present key, then the places, then the creation,
replacement or revival. -/
def acceptPost (h : Header) (f : PostFields) (s : State) : State :=
  if postFieldsOK f then
    let places := namedPlaces f.destination f.via f.stops
    match findRecord f.key s.table.slots with
    | none =>
      match firstBadPlace s.dir places with
      | some (outcome, detail) => answer kindPost h outcome detail s
      | none => postCreate h f s
    | some old =>
      match judgeRevision f.revision old.revision with
      | .duplicate => answer kindPost h outDone (positionDetail s f.key) s
      | .stale => answer kindPost h outStaleRevision old.revision.toNat s
      | .newer =>
        match firstBadPlace s.dir places with
        | some (outcome, detail) => answer kindPost h outcome detail s
        | none =>
          let s := replaceRecord old (postRecord f) s
          answer kindPost h (doneOrAdjusted f.delay) (positionDetail s f.key) s
  else answer kindPost h outOutOfRange 0 s

/-! ### AMEND SERVICE -/

/-- The running state and delay after an amendment (R17). -/
def amendState (r : Record) (state : Option RunState) (delay : Option Int) : RunState × Option Int :=
  match state, delay with
  | none, none => (r.state, r.delay)
  | none, some d => (if r.state = .cancelled then .cancelled else .estimated, some d)
  | some .scheduled, _ => (.scheduled, none)
  | some .unknownDelay, _ => (.unknownDelay, none)
  | some .estimated, some d => (.estimated, some d)
  | some .estimated, none => (.estimated, r.delay)
  | some .cancelled, some d => (.cancelled, some d)
  | some .cancelled, none => (.cancelled, r.delay)

/-- Set the skipped flags of the stops a skip list names and clear those a restore list names (R18). -/
def amendStops (skip restore : List Nat) (stops : List Stop) : List Stop :=
  stops.mapIdx (fun i st =>
    if skip.contains i then { st with skipped := true }
    else if restore.contains i then { st with skipped := false }
    else st)

/-- The record after an applied amendment (R16 to R18). -/
def amendRecord (f : AmendFields) (r : Record) : Record :=
  let run := amendState r (f.state.bind runStateOf) (f.delay.map clampDelay)
  { r with
    revision := f.revision
    state := run.1
    delay := run.2
    platform := f.platform.getD r.platform
    train := match f.train with
      | none => r.train
      | some 0 => none
      | some n => some n
    stops := amendStops (indexList f.skip) (indexList f.restore) r.stops }

/-- The two checks that need the record's content: a stop index beyond its stops, and ESTIMATED with no delay given or
held (R16). -/
def amendContentOK (f : AmendFields) (r : Record) : Bool :=
  (indexList f.skip).all (fun i => decide (i < r.stops.length))
    && (indexList f.restore).all (fun i => decide (i < r.stops.length))
    && !(decide (f.state.bind runStateOf = some .estimated) && f.delay.isNone && r.delay.isNone)

/-- AMEND SERVICE (R15, R16). -/
def acceptAmend (h : Header) (f : AmendFields) (s : State) : State :=
  if amendFieldsOK f then
    match findRecord f.key s.table.slots with
    | none => answer kindAmend h outNoSuchService 0 s
    | some r =>
      match r.life with
      | .leaving cause => answer kindAmend h outServiceLeaving (leaveCauseDetail cause) s
      | .live =>
        match judgeRevision f.revision r.revision with
        | .duplicate => answer kindAmend h outDone (positionDetail s f.key) s
        | .stale => answer kindAmend h outStaleRevision r.revision.toNat s
        | .newer =>
          if amendContentOK f r then
            let s := retable (mapRecord f.key (amendRecord f) s.table.slots) s
            answer kindAmend h (doneOrAdjusted f.delay) (positionDetail s f.key) s
          else answer kindAmend h outOutOfRange 0 s
  else answer kindAmend h outOutOfRange 0 s

/-! ### RETIRE SERVICE, CLEAR BOARD, READ SERVICE -/

/-- Make the record a key names LEAVING with cause RETIRED: the window, the order and its marks, and the sweep at length
0 (R19, R53, R57). -/
def retireRecord (key : Nat) (s : State) : State :=
  let s := touchWindow s
  let s := retable (mapRecord key (Record.leave .retired) s.table.slots) s
  sweepAtZero true s

/-- RETIRE SERVICE (R19). -/
def acceptRetire (h : Header) (key : Nat) (s : State) : State :=
  if keyOK key then
    match findRecord key s.table.slots with
    | none => answer kindRetire h outNoSuchService 0 s
    | some r =>
      let s := if r.isLive then retireRecord key s else s
      answer kindRetire h outDone (leavingCount s.table.slots) s
  else answer kindRetire h outOutOfRange 0 s

/-- CLEAR BOARD (R20): every record removed, every count 0, the window closed with no sweep. -/
def acceptClear (h : Header) (s : State) : State :=
  let removed := (recordsOf s.table.slots).length
  let s := recount (fun _ => []) s
  let s := s.withTable { s.table with window := .closed }
  let s := retable (s.table.slots.map (fun _ => none)) s
  answer kindClear h outDone removed s

/-- READ SERVICE (R27). -/
def acceptReadService (h : Header) (key : Nat) (s : State) : State :=
  if keyOK key then enqueueRead h.tag (.service key) s
  else answerRead kindReadService h outOutOfRange 0 s

/-- The expiry of an OPEN window: the sweep (R59, R61). A CLOSED window has no expiry. -/
def windowExpiry (s : State) : State :=
  match s.table.window with
  | .closed => s
  | .opened _ _ => sweep s

end Sys2Proof.Machine
end

