-- ==== Sys2Proof/Machine/ServiceTime.lean ====
section
/-! DEFINITION. The Timekeeper: "now", minute and step events with their four stages, station time, feed freshness
(chapter 2). -/

namespace Sys2Proof.Machine

/-! ### Now -/

/-- The service minute of a clock minute under an origin (R37). -/
def serviceMinute (origin minute : Nat) : Nat :=
  (minute + 1440 - origin % 1440) % 1440

/-- "Now" recomputed: 0 while the rollover hold flag is set, else the service minute of the board minute (R37). -/
def recomputeNow (s : State) : State :=
  s.withTime { s.time with
    now := if s.time.rollHold then 0 else serviceMinute s.settings.origin s.time.minute }

/-- The displayed clock minute of a service minute (R38). -/
def displayedMinute (origin : Nat) (m : Int) : Nat :=
  (((origin : Int) + m) % 1440).toNat

/-! ### The rollover and the ageing -/

/-- What the rollover makes of a record: rebased by −1440, or kept and, when LIVE, rolled off (R42). -/
def rollRecord (r : Record) : Record :=
  if 0 ≤ r.scheduled then { r with scheduled := r.scheduled - 1440 }
  else if r.isLive then r.leave .rolledOff
  else r

/-- The rollover over the whole table, with the marks of R24 and R25, to which a lowered scheduled time belongs, and whether
it made a record LEAVING (R29, R42, log entry 13). -/
def rollover (s : State) : State × Bool :=
  let left := (recordsOf s.table.slots).any (fun r => r.isLive && decide (r.scheduled < 0))
  let s := if left then touchWindow s else s
  (retable (mapRecords rollRecord s.table.slots) s, left)

/-- Whether a LIVE record has passed its time against "now" (R44). -/
def timedOut (set : Settings) (now : Nat) (r : Record) : Bool :=
  r.isLive && (match r.state with
    | .cancelled => decide (r.scheduled + set.dwell < now)
    | .unknownDelay => decide (r.scheduled + set.horizon < now)
    | .scheduled => decide (orderKey r + set.grace < now)
    | .estimated => decide (orderKey r + set.grace < now))

/-- The ageing of the whole table against "now", and whether it made a record LEAVING (R44, R45). -/
def ageTable (s : State) : State × Bool :=
  let out := timedOut s.settings s.time.now
  let left := (recordsOf s.table.slots).any out
  let s := if left then touchWindow s else s
  (retable (mapRecords (fun r => if out r then r.leave .timedOut else r) s.table.slots) s, left)

/-! ### Minute events and step events -/

/-- Stage 4: the departure lines are marked and the clock request is raised (R39). -/
def repaintRequests (s : State) : State :=
  raiseClock (markLines (departureLines s) s)

/-- What stage 1 of a minute event or step event does (R39, R40). -/
inductive OriginPassage where
  /-- The origin is not crossed. -/
  | no
  /-- A forward passage: the rollover, or the end of the rollover hold. -/
  | forward
  /-- A backward crossing: the rollover hold. -/
  | backward
deriving DecidableEq, Repr

/-- Stage 1, with whether it made a record LEAVING (R39, R40, R41). -/
def passOrigin (p : OriginPassage) (s : State) : State × Bool :=
  match p with
  | .no => (s, false)
  | .backward => (s.withTime { s.time with rollHold := true }, false)
  | .forward =>
    if s.time.rollHold then (s.withTime { s.time with rollHold := false }, false) else rollover s

/-- The four stages of a minute event or step event, and the sweep at window length 0 once every other change of the table
is complete (R39, R40, R57). -/
def timeStages (p : OriginPassage) (s : State) : State :=
  let first := passOrigin p s
  let second := ageTable (recomputeNow first.1)
  repaintRequests (sweepAtZero (first.2 || second.2) second.1)

/-- A forward minute event: running board time advances its minute (R31, R39). Invalid time raises none (R32). -/
def advanceMinute (s : State) : State :=
  if s.time.valid then
    let minute := (s.time.minute + 1) % 1440
    let s := s.withTime { s.time with minute := minute, second := 0, milli := 0 }
    timeStages (if minute = s.settings.origin then .forward else .no) s
  else s

/-! ### Station time -/

/-- A board time of the day in seconds (R35). -/
def secondsOfDay (minute second : Nat) : Nat :=
  60 * minute + second

/-- The service seconds of a second of the day (R36). -/
def serviceSeconds (origin seconds : Nat) : Nat :=
  (seconds + 86400 - 60 * origin % 86400) % 86400

/-- The direction and crossing of a step by distance `d` between two seconds of the day (R36). -/
def stepPassage (origin d before after : Nat) : OriginPassage :=
  if d ≤ 43200 then
    (if serviceSeconds origin after < serviceSeconds origin before then .forward else .no)
  else
    (if serviceSeconds origin before < serviceSeconds origin after then .backward else .no)

/-- Board time set from the station, with millisecond 0 and the inconsistency count 0 (R34, R35). -/
def setBoardTime (minute second : Nat) (s : State) : State :=
  s.withTime { s.time with minute := minute, second := second, milli := 0, inconsistent := 0, valid := true }

/-- A station time received: taken at once while time is invalid, else compared with board time, and stepped to at the
third inconsistency running (R33 to R36). -/
def takeStationTime (minute second : Nat) (s : State) : State :=
  if minute < 1440 ∧ second < 60 then
    if s.time.valid then
      let board := secondsOfDay s.time.minute s.time.second
      let station := secondsOfDay minute second
      let d := (station + 86400 - board) % 86400
      if d ≤ 1 ∨ d = 86399 then s.withTime { s.time with inconsistent := 0 }
      else if s.time.inconsistent + 1 < 3 then
        s.withTime { s.time with inconsistent := s.time.inconsistent + 1 }
      else timeStages (stepPassage s.settings.origin d board station) (setBoardTime minute second s)
    else timeStages .no (selectBoard (setBoardTime minute second s))
  else s

/-! ### Feed freshness -/

/-- The holdover limit in ms (R49, R186). -/
def holdoverMs (s : State) : Nat :=
  60000 * s.settings.holdover

/-- A valid overhead record restarts the freshness timer and returns a LAPSED feed to FRESH (R49). -/
def refreshFeed (s : State) : State :=
  let restarted := s.withTime { s.time with freshness := .fresh, freshTimer := 0 }
  match s.time.freshness with
  | .fresh => restarted
  | .lapsed => selectBoard restarted

/-- The freshness timer reaches the holdover limit in FRESH: LAPSED, with the timer standing at the limit (R49). -/
def lapseFeed (s : State) : State :=
  match s.time.freshness with
  | .lapsed => s
  | .fresh => selectBoard (s.withTime { s.time with freshness := .lapsed, freshTimer := holdoverMs s })

/-- A changed holdover limit applied at once: in FRESH, LAPSED when the timer stands at or above it (R50). In LAPSED the timer
stays where it stands, at the limit that was in force at the lapse (DESIGN CHOICE, log entry 25). -/
def applyHoldover (s : State) : State :=
  if s.time.freshness = .fresh ∧ holdoverMs s ≤ s.time.freshTimer then lapseFeed s else s

end Sys2Proof.Machine
end

