-- ==== Sys2Proof/Machine/Layout.lean ====
section
/-! DEFINITION. Row Layout: what each compose makes of the record, the names and the settings it reads (chapter 5 and the
status text of section 2.7). -/

namespace Sys2Proof.Machine

/-! ### Names -/

/-- The entry of a place as storage holds it. A slot without an entry is read as the empty name; no compose meets one,
since every place a record names is VALID (R10, R120). -/
def placeEntry (d : Directory) (place : Nat) : PlaceEntry :=
  (cellGet StoredSlot.erased d.storage place).entry.getD { full := [], short := none, code := [] }

/-! ### Status text -/

/-- The status test that applies, 1..6, and its text (R46). -/
def statusText (s : State) (r : Record) : Nat × Text :=
  let togo := orderKey r - s.time.now
  let cancelled := glyphs "Cancelled"
  if !r.isLive then (1, if r.state = .cancelled then cancelled else glyphs "Departed")
  else if r.state = .cancelled then (2, cancelled)
  else if r.state = .unknownDelay || (r.state = .estimated && decide ((s.settings.horizon : Int) < r.delay.getD 0)) then
    (3, glyphs "Delayed")
  else if decide (0 < s.settings.countdown) && s.time.valid && decide (togo ≤ s.settings.countdown) then
    (4, if togo ≤ 0 then glyphs "Due" else decimalText togo.toNat ++ glyphs " min")
  else if r.state = .estimated && decide ((s.settings.lateThreshold : Int) ≤ r.delay.getD 0) then
    (5, glyphs "Exp " ++ clockText (displayedMinute s.settings.origin (orderKey r)))
  else (6, glyphs "On time")

/-! ### The departure line -/

/-- Whether the platform field is present: the filter is empty or holds two or more codes (R103). -/
def platformField (s : State) : Bool :=
  s.settings.filter.length != 1

/-- D, the destination field's width (R103). -/
def destinationWidth (s : State) : Nat :=
  if platformField s then s.columns - 124 else s.columns - 98

/-- The platform code set into its field of 20 columns (R105). -/
def setPlatform (s : State) (t : Text) (image : List Column) : PlatformFont × List Column :=
  let field := s.columns - 82
  if textWidth .large t ≤ 20 then
    (.large, setText .large (centredStart field 20 (textWidth .large t)) t image)
  else if s.settings.smallFont then
    (.small, setText .small (centredStart field 20 (textWidth .small t)) t image)
  else
    let two := t.take 2
    (.cut, setText .large field (if textWidth .large two ≤ 20 then two else t.take 1) image)

/-- A text without the space glyphs at its end (R110). -/
def dropSpaces (t : Text) : Text :=
  (t.reverse.dropWhile (fun b => b == spaceGlyph)).reverse

/-- The dots that end a cut name. -/
def dots : Text := glyphs ".."

/-- The cut form of a name: the longest prefix of at most `k` glyphs, without end spaces and not empty, that fits with the
dots (R110). -/
def cutName (f : Font) (size : Nat) (name : Text) : Nat → Text
  | 0 => dots
  | k + 1 =>
    let cut := dropSpaces (name.take (k + 1))
    if !cut.isEmpty && decide (textWidth f (cut ++ dots) ≤ size) then cut ++ dots else cutName f size name k

/-- A name with its via when the whole fits, and whether the via is shown (R108). -/
def withVia (size : Nat) (name : Text) (via : Option Text) : Bool × Text :=
  match via with
  | none => (false, name)
  | some v =>
    let all := name ++ glyphs " via " ++ v
    if textWidth .large all ≤ size then (true, all) else (false, name)

/-- The destination as the fallback chain shows it: the step, whether the via is shown, the font and the text (R108 to
R110). -/
structure DestinationText where
  step : Nat
  via : Bool
  font : Font
  text : Text
deriving DecidableEq, Repr

/-- The truncation of step 5 (R110). -/
def truncated (size : Nat) (small : Bool) (name : Text) : DestinationText :=
  let font := if small then Font.small else Font.large
  { step := 5, via := false, font := font, text := cutName font size name (name.length - 1) }

/-- The fallback chain (R108, R109). -/
def destinationText (size : Nat) (small : Bool) (e : PlaceEntry) (via : Option PlaceEntry) : DestinationText :=
  if textWidth .large e.full ≤ size then
    let t := withVia size e.full (via.map PlaceEntry.full)
    { step := 1, via := t.1, font := .large, text := t.2 }
  else
    match e.short with
    | none =>
      if small && decide (textWidth .small e.full ≤ size) then
        { step := 3, via := false, font := .small, text := e.full }
      else truncated size small e.full
    | some short =>
      if textWidth .large short ≤ size then
        let t := withVia size short (via.map (fun v => v.short.getD v.full))
        { step := 2, via := t.1, font := .large, text := t.2 }
      else if small && decide (textWidth .small e.full ≤ size) then
        { step := 3, via := false, font := .small, text := e.full }
      else if small && decide (textWidth .small short ≤ size) then
        { step := 4, via := false, font := .small, text := short }
      else truncated size small short

/-- The departure line of a record (R103 to R107). -/
def composeDeparture (s : State) (r : Record) : Composed :=
  let status := statusText s r
  let dest := destinationText (destinationWidth s) s.settings.smallFont (placeEntry s.dir r.destination)
    (r.via.map (placeEntry s.dir))
  let image := setText .large 0 (clockText (displayedMinute s.settings.origin r.scheduled)) (darkImage s.geometry)
  let image := setText dest.font 36 dest.text image
  let image := setText .large (rightStart (s.columns - 56) 56 (textWidth .large status.2)) status.2 image
  if platformField s then
    let p := setPlatform s r.platform image
    { image := p.2, layout := .departure r.key dest.step dest.via (some p.1) status.1, strip := none }
  else { image := image, layout := .departure r.key dest.step dest.via none status.1, strip := none }

/-! ### The calling line -/

/-- The widest strip of a calling text (R113). -/
def stripCap : Nat := 4096

/-- The painted stops: those not skipped (R111). -/
def paintedStops (r : Record) : List Stop :=
  r.stops.filter (fun st => !st.skipped)

/-- A painted stop as text: its full name, or its short name where `short` asks and it has one, and the request suffix
(R111, R114). -/
def stopText (d : Directory) (short : Bool) (st : Stop) : Text :=
  let e := placeEntry d st.place
  (if short then e.short.getD e.full else e.full) ++ (if st.request then glyphs " (r)" else [])

/-- Two or more stops joined by ", " and, before the last, " and " (R111). -/
def joinStops : Text → List Text → Text
  | a, [] => a
  | a, [b] => a ++ glyphs " and " ++ b
  | a, b :: c :: r => a ++ glyphs ", " ++ joinStops b (c :: r)

/-- The list part of the calling text (R111). -/
def listPart : List Text → Text
  | [] => []
  | [a] => glyphs "Calling at: " ++ a ++ glyphs " only."
  | a :: b :: r => glyphs "Calling at: " ++ joinStops a (b :: r) ++ glyphs "."

/-- The train sentence (R111). -/
def trainSentence (n : Nat) : Text :=
  glyphs "This train has " ++ decimalText n ++ (if n = 1 then glyphs " coach." else glyphs " coaches.")

/-- The list part with the train sentence, if the record has a train length (R111). -/
def withTrain (list : Text) (train : Option Nat) : Text :=
  match train with
  | none => list
  | some n => if list.isEmpty then trainSentence n else list ++ glyphs " " ++ trainSentence n

/-- The first stops separated by ", " and ended " and more." (R115). -/
def cutList (stops : List Text) : Text :=
  glyphs "Calling at: " ++ (stops.intersperse (glyphs ", ")).flatten ++ glyphs " and more."

/-- The largest number of stops in 1..`k` whose cut text is within the cap (R115). -/
def cutCount (stops : List Text) : Nat → Nat
  | 0 => 0
  | k + 1 => if textWidth .large (cutList (stops.take (k + 1))) ≤ stripCap then k + 1 else cutCount stops k

/-- A calling text with how it was reduced and how many stops it shows (R111 to R115). -/
structure CallingText where
  text : Text
  reduction : Reduction
  stops : Nat
deriving DecidableEq, Repr

/-- The calling text of a record (R111 to R115). -/
def callingText (d : Directory) (r : Record) : CallingText :=
  if r.state = .cancelled then { text := glyphs "This train is cancelled.", reduction := .none, stops := 0 }
  else if !r.isLive then { text := [], reduction := .none, stops := 0 }
  else
    let painted := paintedStops r
    let full := withTrain (listPart (painted.map (stopText d false))) r.train
    if textWidth .large full ≤ stripCap then { text := full, reduction := .none, stops := painted.length }
    else
      let names := painted.map (stopText d true)
      let short := withTrain (listPart names) r.train
      if textWidth .large short ≤ stripCap then { text := short, reduction := .shortNames, stops := painted.length }
      else if textWidth .large (listPart names) ≤ stripCap then
        { text := listPart names, reduction := .trainDropped, stops := painted.length }
      else
        let k := cutCount names (names.length - 1)
        { text := cutList (names.take k), reduction := .cut, stops := k }

/-- A text on a line of its own: static from a start column when it fits the board, else a strip shown at offset 0 (R113,
R118). -/
def composeText (s : State) (start : Nat) (t : Text) (layout : LineMode → LayoutRecord) : Composed :=
  if textWidth .large t ≤ s.columns then
    { image := setText .large start t (darkImage s.geometry), layout := layout .static, strip := none }
  else
    let strip := textColumns .large t
    { image := stripWindow s.geometry strip 0, layout := layout .strip, strip := some strip }

/-- The calling line of the record at position 0 (R113). -/
def composeCalling (s : State) (r : Record) : Composed :=
  let c := callingText s.dir r
  composeText s 0 c.text (fun m => .calling r.key (textWidth .large c.text) m c.reduction c.stops)

/-! ### The other lines -/

/-- A blank line. -/
def composeBlank (s : State) : Composed :=
  { image := darkImage s.geometry, layout := .blank, strip := none }

/-- A text centred on the line in a font. -/
def centredText (s : State) (f : Font) (t : Text) : List Column :=
  setText f (centredStart 0 s.columns (textWidth f t)) t (darkImage s.geometry)

/-- The empty-board text (R116). -/
def composeEmpty (s : State) : Composed :=
  { image := centredText s .large (glyphs "No departures"), layout := .empty, strip := none }

/-- The clock line (R117). -/
def composeClock (s : State) : Composed :=
  if s.time.valid then
    { image := centredText s .large (clockText s.time.minute), layout := .clock (some s.time.minute), strip := none }
  else { image := centredText s .large (glyphs "--:--"), layout := .clock none, strip := none }

/-- A screen text in the large font when it fits the board, else in the small (R119, R157). -/
def composeScreen (s : State) (which : ScreenText) : Composed :=
  let t := match which with
    | .listen => glyphs "Please listen for announcements"
    | .follow => glyphs "Please follow staff instructions"
  if textWidth .large t ≤ s.columns then
    { image := centredText s .large t, layout := .screen which .large, strip := none }
  else { image := centredText s .small t, layout := .screen which .small, strip := none }

/-- The banner: static and centred, or a strip (R118, R140). -/
def composeBanner (s : State) (b : Banner) : Composed :=
  composeText s (centredStart 0 s.columns (textWidth .large b.text)) b.text
    (fun m => .banner (textWidth .large b.text) m)

/-- The position a departure line shows: 0 on line 0, n − 1 on line n (R22, R97). -/
def positionOfLine (line : Nat) : Nat := line - 1

/-- What a TABLE job composes for a line (R131, R156). -/
def composeTable (s : State) (line : Nat) : Composed :=
  match s.board with
  | .showing =>
    if line = 1 then
      match recordAt s 0 with
      | some r => composeCalling s r
      | none => composeBlank s
    else
      match recordAt s (positionOfLine line) with
      | some r => composeDeparture s r
      | none => if line = 0 then composeEmpty s else composeBlank s
  | .unavailable => if line = 0 then composeScreen s .listen else composeBlank s
  | .alert => if line = 0 then composeScreen s .follow else composeBlank s
  | .starting => composeBlank s
  | .closed => composeBlank s
  | .dark => composeBlank s

end Sys2Proof.Machine
end

