-- ==== Sys2Proof/Machine/Suspension.lean ====
section
/-! DEFINITION. The directory's banks and their busy report, halting and resuming an erase, and the paint suspend request as
the directory acts on it (sections 4.7 and 4.8). -/

namespace Sys2Proof.Machine

/-- The two banks (R69). -/
inductive Bank where
  | a
  | b
deriving DecidableEq, Repr

/-- The bank of a sector: A holds sectors 0 to 3 (R69). -/
def bankOfSector (sector : Nat) : Bank :=
  if sector < 4 then .a else .b

/-- The bank of a place (R69). -/
def bankOfPlace (place : Nat) : Bank :=
  bankOfSector (sectorOf place)

/-- Whether and why a bank is busy (R75, R88). -/
def bankBusy (op : DirOp) (bank : Bank) : Option BusyCause :=
  match op with
  | .scanning => some .scan
  | .writing w => if bankOfPlace w.place = bank then some .write else none
  | .suspendedWriting _ _ _ w => if bankOfPlace w.place = bank then some .write else none
  | .erasing _ c => if bankOfSector c.sector = bank then some .erase else none
  | .suspending _ c _ _ => if bankOfSector c.sector = bank then some .erase else none
  | .ready => none
  | .locking _ => none
  | .gathering _ _ => none
  | .suspended _ _ _ => none

/-- The report of both banks reaches the Paint Engine (R88, R145). -/
def reportBanks (s : State) : State :=
  s.withPaint { s.paint with bankA := bankBusy s.dir.op .a, bankB := bankBusy s.dir.op .b }

/-- The report the Paint Engine holds for a bank. -/
def reported (p : Paint) : Bank → Option BusyCause
  | .a => p.bankA
  | .b => p.bankB

/-- The erase bank: that of the current sector while an erase is running or suspended (R144). -/
def eraseBank (op : DirOp) : Option Bank :=
  match op with
  | .erasing _ c => some (bankOfSector c.sector)
  | .suspending _ c _ _ => some (bankOfSector c.sector)
  | .suspended _ c _ => some (bankOfSector c.sector)
  | .suspendedWriting _ c _ _ => some (bankOfSector c.sector)
  | .scanning => none
  | .ready => none
  | .writing _ => none
  | .locking _ => none
  | .gathering _ _ => none

/-- The erase of the current sector runs, setting its erase-begun mark if it had not begun (R81, R85). -/
def startErasing (e : EraseJob) (c : Current) (d : Directory) : Directory :=
  { d with
    eraseMarks := setInsert c.sector d.eraseMarks
    op := .erasing e { c with begun := true } }

/-- Entering ERASING: the erase runs, and goes on to SUSPENDING in the same event when a raised paint request stands and
auto-suspend is on (R87). -/
def enterErasing (e : EraseJob) (c : Current) (s : State) : State :=
  let d := startErasing e c s.dir
  if s.paint.suspendRequest && s.settings.autoSuspend then
    s.withDir { d with op := .suspending e { c with begun := true } .paint [] }
  else s.withDir d

/-- A raise of the paint request, acted on in ERASING with auto-suspend on (R87). -/
def directoryRaise (s : State) : State :=
  match s.dir.op with
  | .erasing e c =>
    if s.settings.autoSuspend then s.withDir { s.dir with op := .suspending e c .paint [] } else s
  | _ => s

/-- A withdrawal of the paint request, or auto-suspend turned off: a suspension of cause PAINT is resumed at once in
SUSPENDED; in SUSPENDING and SUSPENDED_WRITING it waits for the completion (R86, R87). -/
def directoryWithdraw (s : State) : State :=
  match s.dir.op with
  | .suspended e c .paint => s.withDir (startErasing e c s.dir)
  | _ => s

/-- A deferred resumption at a completion that leaves the erase SUSPENDED: it takes place when the cause is still PAINT and
the request stands withdrawn or auto-suspend is off (R87). -/
def deferredResume (s : State) : State :=
  match s.dir.op with
  | .suspended e c .paint =>
    if s.paint.suspendRequest && s.settings.autoSuspend then s else s.withDir (startErasing e c s.dir)
  | _ => s

end Sys2Proof.Machine
end

