-- ==== Sys2Proof/Machine/Arbiter.lean ====
section
/-! DEFINITION. The paint arbiter: eligible lines, grants, the paint suspend request, and the decision that ends every event
(sections 6.2, 6.3 and 6.8). -/

namespace Sys2Proof.Machine

/-! ### Eligible lines -/

/-- The places whose names a line's compose would read (R127). -/
def neededPlaces (s : State) (line : Nat) : List Nat :=
  match s.board with
  | .showing =>
    if line = 1 then
      match recordAt s 0 with
      | some r => if r.isLive && decide (r.state ≠ .cancelled) then (paintedStops r).map Stop.place else []
      | none => []
    else
      match recordAt s (positionOfLine line) with
      | some r => r.destination :: r.via.toList
      | none => []
  | .starting => []
  | .closed => []
  | .unavailable => []
  | .alert => []
  | .dark => []

/-- Whether a line needs a place in a bank. -/
def needsBank (s : State) (line : Nat) (bank : Bank) : Bool :=
  (neededPlaces s line).any (fun p => decide (bankOfPlace p = bank))

/-- Whether a bank is free by the latest report. -/
def bankFree (s : State) (bank : Bank) : Bool :=
  (reported s.paint bank).isNone

/-- Whether a line is eligible for a TABLE job: it belongs to TABLE and every bank it needs is free (R127). -/
def eligible (s : State) (line : Nat) : Bool :=
  decide (ownerOf s line = .table) && (neededPlaces s line).all (fun p => bankFree s (bankOfPlace p))

/-- The lowest eligible line of the dirty line set (R131). -/
def firstEligible (s : State) : Option Nat :=
  s.paint.dirty.find? (eligible s)

/-- Whether the hold is HELD (R141). -/
def isHeld (s : State) : Bool :=
  match s.paint.hold with
  | .held _ => true
  | .free => false
  | .lapsed => false

/-! ### Grants -/

/-- Whether a slot is grantable (R128, R129). -/
def grantable (s : State) : Slot → Bool
  | .table => !isHeld s && (firstEligible s).isSome
  | .scroll => s.settings.scrollEnable && s.paint.callingStep
  | .clock => s.settings.clockEnable && s.paint.clockRequest
  | .banner => s.settings.bannerEnable && (s.paint.bannerCompose || s.paint.bannerStep)

/-- One step of a MOVING scroll on the board: the offset rises by 1, or becomes −W at the strip's width, with the window
there; none when the scroll is not MOVING (R136). -/
def scrollStep (s : State) : Scroll → Option StepResult
  | .moving strip offset _ =>
    let next := if offset + 1 = strip.length then -(s.columns : Int) else offset + 1
    some { offset := next, image := stripWindow s.geometry strip next }
  | .still => none
  | .paused _ _ => none

/-- What a CLOCK grant composes: nothing while a banner owns the line, a blank line in STARTING and DARK, else the clock
(R132). -/
def clockJob (s : State) : Option Composed :=
  if bannerLine s = some (s.lines - 1) then none
  else if s.board = .starting || s.board = .dark then some (composeBlank s)
  else some (composeClock s)

/-- What a banner compose reads at its grant: the banner and its line (R140). -/
def bannerJob (s : State) : Option (Nat × Composed) :=
  match s.paint.banner, bannerLine s with
  | some b, some line => some (line, composeBanner s b)
  | _, _ => none

/-- The paint state of a BUSY arbiter with one job of a slot (R128). -/
def busyWith (slot : Slot) (j : Job) (p : Paint) : Paint :=
  { p with job := some j, lastGranted := slot }

/-- Grant a slot: its request is served and the engine becomes BUSY (R128, R131, R132, R136, R140). -/
def grant (slot : Slot) (s : State) : State :=
  match slot with
  | .table =>
    match firstEligible s with
    | some line =>
      s.withPaint (busyWith .table (.table line (some (composeTable s line)))
        { s.paint with dirty := s.paint.dirty.filter (fun n => n != line) })
    | none => s
  | .scroll =>
    s.withPaint (busyWith .scroll (.callingStep (scrollStep s s.paint.callingScroll))
      { s.paint with callingStep := false })
  | .clock =>
    s.withPaint (busyWith .clock (.clock (clockJob s)) { s.paint with clockRequest := false })
  | .banner =>
    if s.paint.bannerCompose then
      s.withPaint (busyWith .banner (.bannerCompose (bannerJob s))
        { s.paint with bannerCompose := false, bannerStep := false })
    else
      let step := match bannerLine s, scrollStep s s.paint.bannerScroll with
        | some line, some r => some (line, r)
        | _, _ => none
      s.withPaint (busyWith .banner (.bannerStep step) { s.paint with bannerStep := false })

/-- The four slots in cyclic order from the one after the last granted (R124, R128). -/
def roundAfter : Slot → List Slot
  | .table => [.scroll, .clock, .banner, .table]
  | .scroll => [.clock, .banner, .table, .scroll]
  | .clock => [.banner, .table, .scroll, .clock]
  | .banner => [.table, .scroll, .clock, .banner]

/-- A decision of an IDLE arbiter: grant the first grantable slot of the round, if any (R128). A BUSY arbiter decides at
its job's completion. -/
def decideGrant (s : State) : State :=
  match s.paint.job with
  | some _ => s
  | none =>
    match (roundAfter s.paint.lastGranted).find? (grantable s) with
    | some slot => grant slot s
    | none => s

/-! ### The paint suspend request -/

/-- The condition that raises the request: not HELD, and some dirty line of TABLE needs the erase bank, which is busy with
cause erase, while every other bank it needs is free (R144). -/
def raiseCondition (s : State) : Bool :=
  !isHeld s && (match eraseBank s.dir.op with
    | none => false
    | some bank =>
      decide (reported s.paint bank = some .erase) && s.paint.dirty.any (fun line =>
        decide (ownerOf s line = .table) && needsBank s line bank &&
          (neededPlaces s line).all (fun p => decide (bankOfPlace p = bank) || bankFree s (bankOfPlace p))))

/-- The condition that withdraws the request (R144). -/
def withdrawCondition (s : State) : Bool :=
  isHeld s || (match eraseBank s.dir.op with
    | none => true
    | some bank => !s.paint.dirty.any (fun line => decide (ownerOf s line = .table) && needsBank s line bank))

/-- The request is judged against the latest bank report and sent to the directory, which acts on it in the same event (R87,
R144, R145). -/
def judgeRequest (s : State) : State :=
  let s := reportBanks s
  if s.paint.suspendRequest then
    (if withdrawCondition s then
      reportBanks (directoryWithdraw (s.withPaint { s.paint with suspendRequest := false }))
    else s)
  else
    (if raiseCondition s then
      reportBanks (directoryRaise (s.withPaint { s.paint with suspendRequest := true }))
    else s)

/-- The end of every event: the bank report and the suspend request are brought up to date, an IDLE arbiter decides, and the
request is judged again for what the grant took from the dirty line set (R128, R144, R145). -/
def settle (s : State) : State :=
  judgeRequest (decideGrant (judgeRequest s))

/-! ### Events -/

/-- An event of the running part, taken whole: its effect, then the arbiter. While the part is held in reset no event takes
place (R190, log entry 6). -/
def event (f : State → State) (s : State) : State :=
  match s.phase with
  | .running => settle (f s)
  | .inReset => s

/-- An event that reaches the part through the feed line, which is not sampled until the start-up scan ends (R94, R163,
R190). -/
def feedEvent (f : State → State) (s : State) : State :=
  match s.phase with
  | .running => if s.feed.held then s else settle (f s)
  | .inReset => s

end Sys2Proof.Machine
end

