-- ==== Sys2Proof/Machine/PaintEngine.lean ====
section
/-! DEFINITION. The Paint Engine's messages, timers and job completions: hold, banner, scrolls, placement (chapter 6). -/

namespace Sys2Proof.Machine

/-! ### The hold -/

/-- HOLD BOARD (R141). -/
def acceptHold (h : Header) (s : State) : State :=
  answer kindHold h outDone s.settings.holdLimit
    (s.withPaint { s.paint with hold := .held (1000 * s.settings.holdLimit) })

/-- RELEASE BOARD (R142): the detail is the number of dirty lines at acceptance. -/
def acceptRelease (h : Header) (s : State) : State :=
  let free := s.withPaint { s.paint with hold := .free }
  match s.paint.hold with
  | .held _ => answer kindRelease h outDone s.paint.dirty.length free
  | .lapsed => answer kindRelease h outHoldLapsed s.paint.dirty.length free
  | .free => answer kindRelease h outNotHeld s.paint.dirty.length s

/-- The hold timer reaches its limit: LAPSED (R143). -/
def lapseHold (s : State) : State :=
  match s.paint.hold with
  | .held _ => s.withPaint { s.paint with hold := .lapsed }
  | .free => s
  | .lapsed => s

/-! ### The banner -/

/-- The banner record a SET BANNER gives (R138). -/
def newBanner (f : BannerFields) : Banner :=
  { text := f.text, width := textWidth .large f.text,
    remaining := if f.duration = 0 then none else some (1000 * f.duration) }

/-- SET BANNER (R138): the record is replaced, the former banner's scroll stops, line 1 or L − 1 may pass to the banner, and
the banner compose is raised while it owns a line. -/
def acceptSetBanner (h : Header) (f : BannerFields) (s : State) : State :=
  if bannerFieldsOK f then
    let before := bannerLine s
    let s := stopScroll .banner (s.withPaint { s.paint with banner := some (newBanner f) })
    let s := s.withPaint { s.paint with bannerCompose := (bannerLine s).isSome }
    let s := revokeJob (yieldCallingLine before s)
    answer kindSetBanner h outDone (textWidth .large f.text) s
  else answer kindSetBanner h outOutOfRange 0 s

/-- The removal of the banner by CLEAR BANNER or its expiry: its scroll stops, its request is cleared, its line is handed
back and a banner job that runs places nothing (R139). -/
def removeBanner (s : State) : State :=
  let line := bannerLine s
  let s := stopScroll .banner (s.withPaint { s.paint with banner := none, bannerCompose := false })
  let s := if line = some (s.lines - 1) then raiseClock s else s
  let s := if line = some 1 then markLines [1] s else s
  revokeJob s

/-- CLEAR BANNER (R139): the detail is 1 when it removed a banner. -/
def acceptClearBanner (h : Header) (s : State) : State :=
  match s.paint.banner with
  | some _ => answer kindClearBanner h outDone 1 (removeBanner s)
  | none => answer kindClearBanner h outDone 0 s

/-- The expiry of the banner's duration timer (R139). A banner without a duration, or none, has no expiry. -/
def expireBanner (s : State) : State :=
  match s.paint.banner with
  | some b => if b.remaining.isSome then removeBanner s else s
  | none => s

/-! ### Scrolls -/

/-- The interval between steps at the scroll rate in force, in ns (R135). -/
def stepInterval (s : State) : Int :=
  (1000000000 / s.settings.scrollRate : Nat)

/-- A scroll of the part. -/
def scrollOf (p : Paint) : ScrollId → Scroll
  | .calling => p.callingScroll
  | .banner => p.bannerScroll

/-- Replace a scroll. -/
def withScroll (which : ScrollId) (sc : Scroll) (s : State) : State :=
  match which with
  | .calling => s.withPaint { s.paint with callingScroll := sc }
  | .banner => s.withPaint { s.paint with bannerScroll := sc }

/-- Clear the pending step of a scroll. -/
def clearStep (which : ScrollId) (s : State) : State :=
  match which with
  | .calling => s.withPaint { s.paint with callingStep := false }
  | .banner => s.withPaint { s.paint with bannerStep := false }

/-- A scroll at offset 0 begins its pause with the length in force, or is MOVING in the same event when the pause is 0
(R134). -/
def beginPause (s : State) (strip : List Column) : Scroll :=
  if s.settings.scrollPause = 0 then .moving strip 0 (stepInterval s)
  else .paused strip (1000 * s.settings.scrollPause)

/-- The pause of a scroll expires: MOVING, its step timer started (R135). -/
def endPause (which : ScrollId) (s : State) : State :=
  match scrollOf s.paint which with
  | .paused strip _ => withScroll which (.moving strip 0 (stepInterval s)) s
  | .still => s
  | .moving _ _ _ => s

/-- A step of a scroll falls due: the step timer runs on by the interval in force, and the step is raised or merges into one
that is pending (R135). -/
def stepDue (which : ScrollId) (s : State) : State :=
  match scrollOf s.paint which with
  | .moving strip offset wait =>
    let s := withScroll which (.moving strip offset (min wait 0 + stepInterval s)) s
    match which with
    | .calling => s.withPaint { s.paint with callingStep := true }
    | .banner => s.withPaint { s.paint with bannerStep := true }
  | .still => s
  | .paused _ _ => s

/-! ### Placement -/

/-- The engine is free (R130). -/
def freeEngine (s : State) : State :=
  s.withPaint { s.paint with job := none }

/-- Write an image into a line's pending image, replacing any there (R130, R149). -/
def placeImage (line : Nat) (image : List Column) (s : State) : State :=
  s.withFrame { s.frame with pending := s.frame.pending.set line (some image) }

/-- Place a compose: its image and its layout record (R122, R130). -/
def placeComposed (line : Nat) (c : Composed) (s : State) : State :=
  let s := placeImage line c.image s
  s.withPaint { s.paint with layouts := s.paint.layouts.set line c.layout }

/-- The scroll of a line after a compose is placed on it: a strip begins its pause at offset 0, a static or blank line stops
the scroll with its pending step (R131, R134, R137, R140). -/
def restartScroll (which : ScrollId) (strip : Option (List Column)) (s : State) : State :=
  match strip with
  | some columns => withScroll which (beginPause s columns) s
  | none => stopScroll which s

/-- A TABLE job ends: placed if its line is still TABLE's; on line 1 the placement clears the pending calling step (R124,
R130, R131). -/
def tableJobDone (s : State) : State :=
  match s.paint.job with
  | some (.table line out) =>
    let s := freeEngine s
    match out with
    | some c =>
      if ownerOf s line = .table then
        let s := placeComposed line c s
        if line = 1 then restartScroll .calling c.strip (clearStep .calling s) else s
      else s
    | none => s
  | _ => s

/-- A CLOCK job ends: placed if line L − 1 is still CLOCK's (R130, R132). -/
def clockJobDone (s : State) : State :=
  match s.paint.job with
  | some (.clock out) =>
    let s := freeEngine s
    match out with
    | some c => if ownerOf s (s.lines - 1) = .clock then placeComposed (s.lines - 1) c s else s
    | none => s
  | _ => s

/-- A step of a scroll takes effect: the offset moves, and at offset 0 the pause begins again with any step that fell due
cleared (R136). A scroll stopped meanwhile stays STILL. -/
def landStep (which : ScrollId) (r : StepResult) (s : State) : State :=
  match scrollOf s.paint which with
  | .moving strip _ wait =>
    if r.offset = 0 then withScroll which (beginPause s strip) (clearStep which s)
    else withScroll which (.moving strip r.offset wait) s
  | .still => s
  | .paused _ _ => s

/-- A calling step ends: its window is placed if line 1 is still TABLE's (R130, R136). -/
def callingStepDone (s : State) : State :=
  match s.paint.job with
  | some (.callingStep out) =>
    let s := freeEngine s
    match out with
    | some r => if ownerOf s 1 = .table then placeImage 1 r.image (landStep .calling r s) else s
    | none => s
  | _ => s

/-- A banner compose ends: placed if the line it composed for is still BANNER's. A banner step that fell due during the job
stays pending under a new strip, and its job does nothing unless the scroll is MOVING by then (R124, R130, R136, R140). -/
def bannerComposeDone (s : State) : State :=
  match s.paint.job with
  | some (.bannerCompose out) =>
    let s := freeEngine s
    match out with
    | some (line, c) =>
      if ownerOf s line = .banner then restartScroll .banner c.strip (placeComposed line c s) else s
    | none => s
  | _ => s

/-- A banner step ends: its window is placed if the line is still BANNER's (R130, R136). -/
def bannerStepDone (s : State) : State :=
  match s.paint.job with
  | some (.bannerStep out) =>
    let s := freeEngine s
    match out with
    | some (line, r) => if ownerOf s line = .banner then placeImage line r.image (landStep .banner r s) else s
    | none => s
  | _ => s

end Sys2Proof.Machine
end

