-- ==== Sys2Proof/Machine/PlaceDirectory.lean ====
section
/-! DEFINITION. The Place Directory's messages, the completions of its operations, the start-up scan and the operation cut
by a reset (chapter 4). -/

namespace Sys2Proof.Machine

/-- The gather window in ms (R78). -/
def gatherMs : Nat := 40

/-- The erasing time of a sector in ms (R81). -/
def eraseMs : Nat := 300

/-- The time of a lock change in ms (R74). -/
def lockMs : Nat := 5

/-- The most messages the joined list holds (R78). -/
def joinLimit : Nat := 16

/-- Change the operation state. -/
def withOp (op : DirOp) (s : State) : State :=
  s.withDir { s.dir with op := op }

/-! ### Abandoning a gather -/

/-- A write or lock message that has passed its own checks abandons a gather: joined messages are answered ERASE_ABANDONED
with the erase set, and the state becomes READY (R80). They are answered in the order in which they joined (DEDUCED, log entry
40). -/
def abandonGather (s : State) : State :=
  match s.dir.op with
  | .gathering e _ => answerAll kindErase e.joined outEraseAbandoned (maskOf e.set) (withOp .ready s)
  | _ => s

/-! ### Writing -/

/-- The code of a slot state (R70). -/
def slotStateCode : SlotState → Nat
  | .blank => 0
  | .writing => 1
  | .valid => 2
  | .defective => 3

/-- A write starts: the slot becomes WRITING, its write-begun mark is set and its content goes to storage (R69, R76). -/
def startWrite (f : WriteFields) (op : DirOp) (s : State) : State :=
  s.withDir { s.dir with
    storage := cellSet StoredSlot.erased s.dir.storage f.place
      { entry := some f.entry, begun := true, complete := false }
    slotStates := cellSet .blank s.dir.slotStates f.place .writing
    op := op }

/-- The checks of a write against the lock and the slot, and its start (R76 steps 2 and 3). -/
def tryWrite (h : Header) (f : WriteFields) (op : DirOp) (s : State) : State :=
  if s.dir.locks.contains (sectorOf f.place) then answer kindWrite h outSectorLocked (sectorOf f.place) s
  else if slotState s.dir f.place ≠ .blank then
    answer kindWrite h outSlotNotBlank (slotStateCode (slotState s.dir f.place)) s
  else startWrite f op s

/-- WRITE PLACE (R75, R76, R86). -/
def acceptWrite (h : Header) (f : WriteFields) (s : State) : State :=
  if writeFieldsOK f then
    let run : WriteRun := { place := f.place, header := h }
    match s.dir.op with
    | .ready => tryWrite h f (.writing run) s
    | .gathering _ _ => tryWrite h f (.writing run) (abandonGather s)
    | .suspended e c cause =>
      if e.set.contains (sectorOf f.place) then answer kindWrite h outPlaceUnavailable (sectorOf f.place) s
      else tryWrite h f (.suspendedWriting e c cause run) s
    | .scanning => answer kindWrite h outDirectoryBusy 0 s
    | .writing _ => answer kindWrite h outDirectoryBusy 0 s
    | .locking _ => answer kindWrite h outDirectoryBusy 0 s
    | .erasing _ _ => answer kindWrite h outDirectoryBusy 0 s
    | .suspending _ _ _ _ => answer kindWrite h outDirectoryBusy 0 s
    | .suspendedWriting _ _ _ _ => answer kindWrite h outDirectoryBusy 0 s
  else answer kindWrite h outOutOfRange 0 s

/-- The end of a write, verified or not: the marks, the slot state, the directory state and the answer (R77). -/
def endWrite (verified : Bool) (w : WriteRun) (op : DirOp) (s : State) : State :=
  let slot := cellGet StoredSlot.erased s.dir.storage w.place
  let s := s.withDir { s.dir with
    storage := cellSet StoredSlot.erased s.dir.storage w.place { slot with complete := verified }
    slotStates := cellSet .blank s.dir.slotStates w.place (if verified then .valid else .defective)
    op := op }
  answer kindWrite w.header (if verified then outDone else outWriteFailed) w.place s

/-- The completion of a write: READY from WRITING, SUSPENDED from SUSPENDED_WRITING with any deferred resumption (R77, R86,
R87). -/
def completeWrite (verified : Bool) (s : State) : State :=
  match s.dir.op with
  | .writing w => endWrite verified w .ready s
  | .suspendedWriting e c cause w => deferredResume (endWrite verified w (.suspended e c cause) s)
  | _ => s

/-! ### Gathering and erasing -/

/-- Whether any slot of a sector has a reference count above zero, and the lowest such place (R78). -/
def lowestReferenced (d : Directory) (sector : Nat) : Option Nat :=
  (d.counts.find? (fun c => decide (sectorOf c.1 = sector) && decide (0 < c.2))).map Prod.fst

/-- A message that passes the checks joins the erase: not added again when its sector is in the set, else added with the
window opened or restarted; as the seventeenth it is refused (R78). -/
def joinErase (h : Header) (sector : Nat) (e : EraseJob) (window : Nat) (s : State) : State :=
  if joinLimit ≤ e.joined.length then answer kindErase h outDirectoryBusy 0 s
  else if e.set.contains sector then
    withOp (.gathering { e with joined := e.joined ++ [h] } window) s
  else
    withOp (.gathering { e with joined := e.joined ++ [h], set := setInsert sector e.set } gatherMs) s

/-- ERASE SECTOR in READY or GATHERING, where `e` is the erase gathered so far (R78). -/
def tryErase (h : Header) (sector : Nat) (e : EraseJob) (window : Nat) (s : State) : State :=
  if s.dir.locks.contains sector then answer kindErase h outSectorLocked sector s
  else
    match lowestReferenced s.dir sector with
    | some place => answer kindErase h outPlaceInUse place s
    | none => joinErase h sector e window s

/-- ERASE SECTOR (R75, R78). -/
def acceptErase (h : Header) (sector : Nat) (s : State) : State :=
  if sector < 8 then
    match s.dir.op with
    | .ready => tryErase h sector { set := [], joined := [], erased := [] } gatherMs s
    | .gathering e window => tryErase h sector e window s
    | .scanning => answer kindErase h outDirectoryBusy 0 s
    | .writing _ => answer kindErase h outDirectoryBusy 0 s
    | .locking _ => answer kindErase h outDirectoryBusy 0 s
    | .erasing _ _ => answer kindErase h outDirectoryBusy 0 s
    | .suspending _ _ _ _ => answer kindErase h outDirectoryBusy 0 s
    | .suspended _ _ _ => answer kindErase h outDirectoryBusy 0 s
    | .suspendedWriting _ _ _ _ => answer kindErase h outDirectoryBusy 0 s
  else answer kindErase h outOutOfRange 0 s

/-- The lowest sector of a set as the current sector, its erase not begun (R81, R83). -/
def firstCurrent (set : List Nat) : Current :=
  { sector := set.headD 0, remaining := eraseMs, begun := false }

/-- The gather window expires: the erase of the lowest sector begins (R81). -/
def gatherExpiry (s : State) : State :=
  match s.dir.op with
  | .gathering e _ => enterErasing e (firstCurrent e.set) s
  | _ => s

/-- The slots of a sector, erased: blank in storage and in the slot-state table, with the erase-begun mark cleared (R81). -/
def eraseSlots (sector : Nat) (d : Directory) : Directory :=
  { d with
    storage := cellClear (128 * sector) (128 * sector + 128) d.storage
    slotStates := cellClear (128 * sector) (128 * sector + 128) d.slotStates
    eraseMarks := setRemoveAll [sector] d.eraseMarks }

/-- An erase with its current sector done. -/
def EraseJob.done (e : EraseJob) (sector : Nat) : EraseJob :=
  { e with set := setRemoveAll [sector] e.set, erased := setInsert sector e.erased }

/-- The current sector's erase completes: its slots become BLANK, it leaves the set, and the next sector becomes current or
the erase ends with its answers; SUSPEND ERASE messages merged into a suspension that finds the erase ended are answered
NOT_SUSPENDED, in the order in which they arrived (R81, R82, R84; DESIGN CHOICE, log entry 39). A sector not begun is not being
erased. -/
def sectorDone (s : State) : State :=
  match s.dir.op with
  | .erasing e c =>
    let e' := e.done c.sector
    let d := eraseSlots c.sector s.dir
    if e'.set.isEmpty then
      answerAll kindErase e'.joined outDone (maskOf e'.erased) (s.withDir { d with op := .ready })
    else s.withDir (startErasing e' (firstCurrent e'.set) d)
  | .suspending e c cause merged =>
    if c.begun then
      let e' := e.done c.sector
      let d := eraseSlots c.sector s.dir
      if e'.set.isEmpty then
        answerAll kindSuspend merged outNotSuspended 0
          (answerAll kindErase e'.joined outDone (maskOf e'.erased) (s.withDir { d with op := .ready }))
      else s.withDir { d with op := .suspending e' (firstCurrent e'.set) cause merged }
    else s
  | _ => s

/-! ### Suspending and resuming -/

/-- SUSPEND ERASE (R83). -/
def acceptSuspend (h : Header) (s : State) : State :=
  match s.dir.op with
  | .erasing e c => withOp (.suspending e c .commanded [h]) s
  | .suspending e c _ merged => withOp (.suspending e c .commanded (merged ++ [h])) s
  | .suspended e c _ => answer kindSuspend h outDone c.remaining (withOp (.suspended e c .commanded) s)
  | .suspendedWriting e c _ w =>
    answer kindSuspend h outDone c.remaining (withOp (.suspendedWriting e c .commanded w) s)
  | .gathering e _ =>
    let c := firstCurrent e.set
    answer kindSuspend h outDone c.remaining (withOp (.suspended e c .commanded) s)
  | .ready => answer kindSuspend h outNotSuspended 0 s
  | .writing _ => answer kindSuspend h outNotSuspended 0 s
  | .locking _ => answer kindSuspend h outNotSuspended 0 s
  | .scanning => answer kindSuspend h outDirectoryBusy 0 s

/-- The suspension completes: SUSPENDED with its cause, the merged messages answered with the remaining time, and any
deferred resumption (R84, R87). The merged messages are answered in the order in which they arrived (DESIGN CHOICE, log entry
39). -/
def suspensionDone (s : State) : State :=
  match s.dir.op with
  | .suspending e c cause merged =>
    deferredResume (answerAll kindSuspend merged outDone c.remaining (withOp (.suspended e c cause) s))
  | _ => s

/-- RESUME ERASE (R85). -/
def acceptResume (h : Header) (s : State) : State :=
  match s.dir.op with
  | .suspended e c .commanded => answer kindResume h outDone 0 (enterErasing e c s)
  | .suspended _ _ .paint => answer kindResume h outNotSuspended 0 s
  | .suspendedWriting _ _ .commanded _ => answer kindResume h outDirectoryBusy 0 s
  | .suspendedWriting _ _ .paint _ => answer kindResume h outNotSuspended 0 s
  | .suspending _ _ _ _ => answer kindResume h outDirectoryBusy 0 s
  | .scanning => answer kindResume h outDirectoryBusy 0 s
  | .ready => answer kindResume h outNotSuspended 0 s
  | .writing _ => answer kindResume h outNotSuspended 0 s
  | .locking _ => answer kindResume h outNotSuspended 0 s
  | .gathering _ _ => answer kindResume h outNotSuspended 0 s
  | .erasing _ _ => answer kindResume h outNotSuspended 0 s

/-! ### Locks -/

/-- A lock change starts, toward a new set of locked sectors (R73, R74). -/
def startLock (kind : Byte) (h : Header) (target : List Nat) (s : State) : State :=
  withOp (.locking { target := target, kind := kind, header := h, remaining := lockMs }) s

/-- A lock change where the directory state takes it: in READY, or in GATHERING once the gather is abandoned (R73 steps 2 to
4). -/
def tryLock (kind : Byte) (h : Header) (target : List Nat) (s : State) : State :=
  match s.dir.op with
  | .ready => startLock kind h target s
  | .gathering _ _ => startLock kind h target (abandonGather s)
  | .scanning => answer kind h outDirectoryBusy 0 s
  | .writing _ => answer kind h outDirectoryBusy 0 s
  | .locking _ => answer kind h outDirectoryBusy 0 s
  | .erasing _ _ => answer kind h outDirectoryBusy 0 s
  | .suspending _ _ _ _ => answer kind h outDirectoryBusy 0 s
  | .suspended _ _ _ => answer kind h outDirectoryBusy 0 s
  | .suspendedWriting _ _ _ _ => answer kind h outDirectoryBusy 0 s

/-- LOCK SECTORS (R73). -/
def acceptLock (h : Header) (sectors : Byte) (s : State) : State :=
  if sectors = 0 then answer kindLock h outOutOfRange 0 s
  else tryLock kindLock h (setInsertAll (setOfMask sectors) s.dir.locks) s

/-- FREE SECTORS (R73): with the staff key's de-bounced level read at acceptance. -/
def acceptFree (h : Header) (sectors : Byte) (s : State) : State :=
  if sectors = 0 then answer kindFree h outOutOfRange 0 s
  else if s.key.asserted then tryLock kindFree h (setRemoveAll (setOfMask sectors) s.dir.locks) s
  else answer kindFree h outKeyRequired 0 s

/-- The lock change completes: storage and the RAM copy take the new set, and the message is answered (R74). -/
def lockDone (s : State) : State :=
  match s.dir.op with
  | .locking l =>
    answer l.kind l.header outDone (maskOf l.target)
      (s.withDir { s.dir with lockFlags := l.target, locks := l.target, op := .ready })
  | _ => s

/-! ### Reading -/

/-- READ PLACE (R90). -/
def acceptReadPlace (h : Header) (place : Nat) (s : State) : State :=
  if place < 1024 then enqueueRead h.tag (.place place) s
  else answerRead kindReadPlace h outOutOfRange 0 s

/-! ### The scan and the operation cut by a reset -/

/-- The state the scan gives a slot from its marks, outside a sector whose erase-begun mark is set (R93). -/
def scannedState (slot : StoredSlot) : SlotState :=
  if !slot.begun && !slot.complete then .blank
  else if slot.begun && slot.complete && (match slot.entry with
    | some e => entryOK e
    | none => false) then .valid
  else .defective

/-- The slot-state table the scan sets from storage: listed slots by their marks, then every slot of a sector whose
erase-begun mark is set DEFECTIVE (R93). -/
def scannedStates (d : Directory) : List (Nat × SlotState) :=
  let byMarks := (d.storage.map (fun c => (c.1, scannedState c.2))).filter (fun c => decide (c.2 ≠ .blank))
  d.eraseMarks.foldl (fun acc sector => cellFill .blank (128 * sector) 128 .defective acc) byMarks

/-- The start-up scan ends: slot states and locks set, READY, and the Feed Receiver released in HUNTING if it was held (R93,
R94, R163). The RAM locks take the stored flags here, at the scan's end (DESIGN CHOICE, log entry 41). -/
def scanDone (s : State) : State :=
  match s.dir.op with
  | .scanning =>
    let s := s.withDir { s.dir with slotStates := scannedStates s.dir, locks := s.dir.lockFlags, op := .ready }
    if s.feed.held then s.withFeed { s.feed with held := false, alignment := .hunting [] } else s
  | _ => s

/-- What a reset leaves in storage of the operation it cuts: only a lock change leaves a choice, whose outcome is the free
value given (R74, R92). The marks of a cut write or erase were set when it began. -/
def cutStorage (takesNew : Bool) (d : Directory) : Directory :=
  match d.op with
  | .locking l => { d with lockFlags := if takesNew then l.target else d.lockFlags }
  | _ => d

/-- The current sector of an erase that has begun and not completed, if any (R92). -/
def begunSector : DirOp → Option Nat
  | .erasing _ c => if c.begun then some c.sector else none
  | .suspending _ c _ _ => if c.begun then some c.sector else none
  | .suspended _ c _ => if c.begun then some c.sector else none
  | .suspendedWriting _ c _ _ => if c.begun then some c.sector else none
  | .scanning => none
  | .ready => none
  | .writing _ => none
  | .locking _ => none
  | .gathering _ _ => none

/-- The slot being written, if any (R92). -/
def writingSlot : DirOp → Option Nat
  | .writing w => some w.place
  | .suspendedWriting _ _ _ w => some w.place
  | _ => none

/-- The RAM slot-state table at once after RESTART: the cut write's slot and every slot of a sector whose erase had begun
DEFECTIVE, the others as they were (R95). -/
def cutStates (d : Directory) : List (Nat × SlotState) :=
  let afterWrite := match writingSlot d.op with
    | some place => cellSet .blank d.slotStates place .defective
    | none => d.slotStates
  match begunSector d.op with
  | some sector => cellFill .blank (128 * sector) 128 .defective afterWrite
  | none => afterWrite

/-- The directory after power-on and the reset line: storage kept with the marks of the cut operation, the RAM tables empty,
SCANNING (R92, R94, R95). -/
def directoryReset (takesNew : Bool) (d : Directory) : Directory :=
  { cutStorage takesNew d with slotStates := [], counts := [], locks := [], op := .scanning }

/-- The directory after RESTART: as after a reset, but the slot-state table is set at once and the RAM copy of the locks is
kept until the scan loads it (R95). -/
def directoryRestart (takesNew : Bool) (d : Directory) : Directory :=
  { cutStorage takesNew d with slotStates := cutStates d, counts := [], op := .scanning }

end Sys2Proof.Machine
end

