-- ==== Sys2Proof/Machine/BoardSettings.lean ====
section
/-! DEFINITION. SET BOARD, RESTART, the two hard resets, reset release and the staff key (chapter 10 and the reset rules of
every chapter). -/

namespace Sys2Proof.Machine

/-! ### SET BOARD -/

/-- Whether text `a` comes before text `b` in ascending character order (R191). -/
def textBefore : Text → Text → Bool
  | [], [] => false
  | [], _ :: _ => true
  | _ :: _, [] => false
  | a :: x, b :: y => decide (a.toNat < b.toNat) || (a == b && textBefore x y)

/-- Add a code to a filter; a code already held is held once (R186). -/
def filterInsert (t : Text) : List Text → List Text
  | [] => [t]
  | u :: r => if textBefore t u then t :: u :: r else if t = u then u :: r else u :: filterInsert t r

/-- The set of codes a list of codes gives (R186). -/
def filterOf (l : List Text) : List Text :=
  l.foldr filterInsert []

/-- The filter check (R187 step 1). -/
def filterOK (l : List Text) : Bool :=
  decide (l.length ≤ 4) && l.all platformOK

/-- A number taken as the nearest end of a range (R187 step 2). -/
def clamp (lo hi n : Nat) : Nat :=
  max lo (min n hi)

/-- The settings a SET BOARD gives: each setting present takes its clamped value (R187). -/
def newSettings (f : BoardFields) (o : Settings) : Settings :=
  { filter := match f.filter with
      | none => o.filter
      | some l => filterOf l
    origin := (f.origin.map (clamp 0 359)).getD o.origin
    sweepLength := (f.sweepLength.map (clamp 0 10)).getD o.sweepLength
    holdover := (f.holdover.map (clamp 1 60)).getD o.holdover
    holdLimit := (f.holdLimit.map (clamp 1 30)).getD o.holdLimit
    countdown := (f.countdown.map (clamp 0 30)).getD o.countdown
    lateThreshold := (f.lateThreshold.map (clamp 1 10)).getD o.lateThreshold
    horizon := (f.horizon.map (clamp 30 999)).getD o.horizon
    grace := (f.grace.map (clamp 0 10)).getD o.grace
    dwell := (f.dwell.map (clamp 1 60)).getD o.dwell
    scrollRate := (f.scrollRate.map (clamp 10 100)).getD o.scrollRate
    scrollPause := (f.scrollPause.map (clamp 0 10)).getD o.scrollPause
    scrollEnable := f.scrollEnable.getD o.scrollEnable
    clockEnable := f.clockEnable.getD o.clockEnable
    bannerEnable := f.bannerEnable.getD o.bannerEnable
    autoSuspend := f.autoSuspend.getD o.autoSuspend
    alignWindow := (f.alignWindow.map (clamp 4 6)).getD o.alignWindow
    mimicCheck := f.mimicCheck.getD o.mimicCheck
    debounce := f.debounce.getD o.debounce
    smallFont := f.smallFont.getD o.smallFont }

/-- Whether a number given lies outside its range. -/
def outside (lo hi : Nat) (n : Option Nat) : Bool :=
  match n with
  | none => false
  | some n => decide (clamp lo hi n ≠ n)

/-- Whether any value of a SET BOARD was clamped (R187). -/
def anyClamped (f : BoardFields) : Bool :=
  outside 0 359 f.origin || outside 0 10 f.sweepLength || outside 1 60 f.holdover || outside 1 30 f.holdLimit
    || outside 0 30 f.countdown || outside 1 10 f.lateThreshold || outside 30 999 f.horizon || outside 0 10 f.grace
    || outside 1 60 f.dwell || outside 10 100 f.scrollRate || outside 0 10 f.scrollPause || outside 4 6 f.alignWindow

/-- The number of settings whose held value differs, 0..20 (R187). -/
def changedCount (a b : Settings) : Nat :=
  ([decide (a.filter ≠ b.filter), decide (a.origin ≠ b.origin), decide (a.sweepLength ≠ b.sweepLength),
    decide (a.holdover ≠ b.holdover), decide (a.holdLimit ≠ b.holdLimit), decide (a.countdown ≠ b.countdown),
    decide (a.lateThreshold ≠ b.lateThreshold), decide (a.horizon ≠ b.horizon), decide (a.grace ≠ b.grace),
    decide (a.dwell ≠ b.dwell), decide (a.scrollRate ≠ b.scrollRate), decide (a.scrollPause ≠ b.scrollPause),
    decide (a.scrollEnable ≠ b.scrollEnable), decide (a.clockEnable ≠ b.clockEnable),
    decide (a.bannerEnable ≠ b.bannerEnable), decide (a.autoSuspend ≠ b.autoSuspend),
    decide (a.alignWindow ≠ b.alignWindow), decide (a.mimicCheck ≠ b.mimicCheck), decide (a.debounce ≠ b.debounce),
    decide (a.smallFont ≠ b.smallFont)].filter id).length

/-- A changed platform filter: visibility and the running order anew, and lines 0 to L − 2 marked (R26, R30). -/
def applyFilter (s : State) : State :=
  let order := runningOrder s.settings.filter s.table.slots
  markLines (tableLines s) (s.withTable { s.table with order := order })

/-- A changed origin: the rollover hold flag cleared and "now" recomputed (R37). -/
def applyOrigin (s : State) : State :=
  recomputeNow (s.withTime { s.time with rollHold := false })

/-- Auto-suspend changed: off acts as a withdrawal, on as a raise when a request stands (R87). -/
def applyAutoSuspend (s : State) : State :=
  if s.settings.autoSuspend then (if s.paint.suspendRequest then directoryRaise s else s)
  else directoryWithdraw s

/-- The settings applied together, each that changed handed to the block that reads it (R187, R188). -/
def applySettings (new : Settings) (s : State) : State :=
  let old := s.settings
  let s := s.withSettings new
  let s := if new.filter ≠ old.filter then applyFilter s else s
  let s := if new.origin ≠ old.origin then applyOrigin s else s
  let s := if new.holdover ≠ old.holdover then applyHoldover s else s
  let s := if new.autoSuspend ≠ old.autoSuspend then applyAutoSuspend s else s
  if new.smallFont ≠ old.smallFont then markLines (departureLines s) s else s

/-- SET BOARD (R187). -/
def acceptSetBoard (h : Header) (f : BoardFields) (s : State) : State :=
  let new := newSettings f s.settings
  let count := (recordsOf s.table.slots).length
  if !filterOK (f.filter.getD []) then answer kindSetBoard h outOutOfRange 0 s
  else if new.origin ≠ s.settings.origin ∧ 0 < count then answer kindSetBoard h outTableNotEmpty count s
  else
    answer kindSetBoard h (if anyClamped f then outAdjusted else outDone) (changedCount new s.settings)
      (applySettings new s)

/-! ### RESTART -/

/-- RESTART (R189): every setting to its default and each block's own RESTART reset, then the board state derived anew from
the kept inputs and taken as a change (R158). -/
def acceptRestart (s : State) : State :=
  let s := s.withDir (directoryRestart (Config.lockCutTakesNew s.freeIndex) s.dir)
  let s := s.withFreeIndex (s.freeIndex + 1)
  let s := s.withSettings Settings.default
  let s := s.withTable Table.reset
  let s := s.withUnpacker Unpacker.reset
  let s := s.withResults { s.results with queue := [], lost := false }
  let s := s.withFeed { s.feed with candidate := none, lossCount := 0 }
  let s := s.withPaint (Paint.reset s.lines)
  let s := s.withFrame { FrameStore.reset s.geometry with
    refreshTimer := s.frame.refreshTimer, panels := s.frame.panels }
  let s := recomputeNow (s.withTime { s.time with inconsistent := 0, rollHold := false })
  let limit := holdoverMs s
  let s := if s.time.freshness = .fresh ∧ limit ≤ s.time.freshTimer then
    s.withTime { s.time with freshness := .lapsed, freshTimer := limit } else s
  selectFirst s

/-! ### Power-on and the reset line -/

/-- A hard reset: every block at its reset value, the operation in progress cut, panels blanked, and the part held until
reset release. Storage, the level of the staff key input, the latched geometry (until the pins are sampled at release), what
the modules have latched and the queue of commands stand (R92, R152, R190). -/
def hardReset (s : State) : State :=
  { State.reset with
    geometry := s.geometry
    key := { input := s.key.input, timer := none, asserted := false }
    dir := directoryReset (Config.lockCutTakesNew s.freeIndex) s.dir
    paint := Paint.reset s.lines
    frame := { FrameStore.reset s.geometry with panels := s.frame.panels }
    freeIndex := s.freeIndex + 1
    pending := s.pending }

/-- Reset release: the geometry is latched from the pins, the images and layout records are those of that geometry, the
staff key's de-bounce starts, and the board state is derived and taken as a change (R94, R126, R158, R190). -/
def releaseReset (geo1 geo0 : Bool) (s : State) : State :=
  match s.phase with
  | .running => s
  | .inReset =>
    let s := (s.withPhase .running).withElapsed 0
    let s := s.withGeometry (geometryCode geo1 geo0)
    let s := s.withPaint (Paint.reset s.lines)
    let s := s.withFrame (FrameStore.reset s.geometry)
    let s := s.withKey { s.key with timer := if s.key.input then some 0 else none }
    settle (selectFirst s)

/-! ### The staff key -/

/-- The de-bounce time of the staff key input in ms (R190). -/
def keyMs : Nat := 20

/-- The staff key input changes level: de-bounce starts anew when it differs from the de-bounced level, and ends when it
does not; in reset only the level of the input is followed (R190). -/
def keyInputChange (closed : Bool) (s : State) : State :=
  let timer := match s.phase with
    | .inReset => none
    | .running =>
      if closed = s.key.asserted then none
      else if closed = s.key.input then s.key.timer
      else some 0
  s.withKey { s.key with input := closed, timer := timer }

/-- The input has held its new level for 20 ms: the de-bounced level takes it (R190). -/
def keyDebounced (s : State) : State :=
  match s.key.timer with
  | some _ => s.withKey { s.key with timer := none, asserted := s.key.input }
  | none => s

end Sys2Proof.Machine
end

