-- ==== Sys2Proof/Machine/Messages.lean ====
section
/-! DEFINITION. The Message Unpacker and dispatch (sections 9.1 and 9.2). -/

namespace Sys2Proof.Machine

/-! ### Dispatch -/

/-- READ BOARD (R185). -/
def acceptReadBoard (h : Header) (s : State) : State :=
  enqueueRead h.tag .board s

/-- A message that passed the structure check is accepted or refused by its owner (R177 step 3). -/
def acceptMessage (h : Header) (m : Message) (s : State) : State :=
  match m with
  | .post f => acceptPost h f s
  | .amend f => acceptAmend h f s
  | .retire key => acceptRetire h key s
  | .clearBoard => acceptClear h s
  | .holdBoard => acceptHold h s
  | .releaseBoard => acceptRelease h s
  | .setBanner f => acceptSetBanner h f s
  | .clearBanner => acceptClearBanner h s
  | .writePlace f => acceptWrite h f s
  | .eraseSector sector => acceptErase h sector s
  | .suspendErase => acceptSuspend h s
  | .resumeErase => acceptResume h s
  | .lockSectors sectors => acceptLock h sectors s
  | .freeSectors sectors => acceptFree h sectors s
  | .readService key => acceptReadService h key s
  | .readPlace place => acceptReadPlace h place s
  | .readBoard => acceptReadBoard h s
  | .setBoard f => acceptSetBoard h f s
  | .restart => acceptRestart s

/-- The answer to a message refused at the structure check (R177 step 2): reads are answered whatever their flag. -/
def answerStructure (kind : Byte) (h : Header) (s : State) : State :=
  if isReadKind kind then answerRead kind h outOutOfRange 0 s else answer kind h outOutOfRange 0 s

/-- A good message: its kind, its structure, its owner, and the arbiter's decision, since an acceptance is an event of its
own (R177, scope section 4). -/
def dispatch (kind : Byte) (h : Header) (params : List Byte) (s : State) : State :=
  match kindReader kind with
  | none => answer kind h outUnknownKind 0 s
  | some read =>
    match read params with
    | none => answerStructure kind h s
    | some m => settle (acceptMessage h m s)

/-! ### The Message Unpacker -/

/-- The message marker (R178). -/
def messageMarker : Byte := 0xC3

/-- Change the unpacker's state and buffer. -/
def withUnpack (st : UnpackState) (buffer : List Octet) (s : State) : State :=
  s.withUnpacker { s.unpacker with state := st, buffer := buffer }

/-- The largest value of a count that saturates at 65535 (R166, R175). -/
def saturate (n : Nat) : Nat := min n 65535

/-- A bad message is counted and the unpacker left SEARCHING with an empty buffer (R175). -/
def countBad (s : State) : State :=
  s.withUnpacker { state := .searching, buffer := [], badCount := saturate (s.unpacker.badCount + 1) }

/-- Dispatch a complete message from its octets: marker, length, kind, tag, flags, parameters, CRC (R178). -/
def dispatchOctets (octets : List Byte) (s : State) : State :=
  match octets with
  | _ :: length :: kind :: tag :: flags :: rest =>
    dispatch kind { tag := tag, reply := flags.getLsbD 0 } (rest.take (length.toNat - 5)) s
  | _ => s

/-- Whether the CRC of a complete message matches: over the length octet up to the last parameter octet, against the two
octets that follow (R175, R178). -/
def crcMatches (octets : List Byte) : Bool :=
  let body := octets.drop 1
  let n := body.length - 2
  decide (crcOctets (body.take n) = body.drop n)

/-- What one payload octet did: taken, or found the message bad, with the octets held after the bad marker (R174, R175). -/
inductive Taken where
  | done (s : State)
  | bad (s : State) (held : List Octet)

/-- The unpacker takes one octet (R174, R175). -/
def takeOctet (o : Octet) (s : State) : Taken :=
  let u := s.unpacker
  let buffer := u.buffer ++ [o]
  match u.state with
  | .searching =>
    if o.data = messageMarker ∧ o.stopError = false then .done (withUnpack .length [o] s) else .done s
  | .length =>
    if o.stopError = false ∧ 5 ≤ o.data.toNat ∧ o.data.toNat ≤ 250 then
      .done (withUnpack (.body o.data.toNat) buffer s)
    else .bad (countBad s) (buffer.drop 1)
  | .body expected =>
    if o.stopError then .bad (countBad s) (buffer.drop 1)
    else if 1 < expected then .done (withUnpack (.body (expected - 1)) buffer s)
    else
      let octets := buffer.map Octet.data
      if crcMatches octets then .done (dispatchOctets octets (withUnpack .searching [] s))
      else .bad (countBad s) (buffer.drop 1)

/-- Take octets in order until they end or one finds a message bad; then the octets to examine again, before those still to
come, are given back (R175). -/
def takeOctets : List Octet → State → State × Option (List Octet)
  | [], s => (s, none)
  | o :: rest, s =>
    match takeOctet o s with
    | .done s' => takeOctets rest s'
    | .bad s' held => (s', some (held ++ rest))

/-- Take octets with every re-examination they set off. Each bad message gives up its marker, so the octets in hand grow
fewer at each and `fuel` above their number is never used up (R175). -/
def examine : Nat → List Octet → State → State
  | 0, _, s => s
  | fuel + 1, octets, s =>
    match takeOctets octets s with
    | (s', none) => s'
    | (s', some again) => examine fuel again s'

/-- The most octets the reassembly buffer holds (R174). -/
def bufferLimit : Nat := 252

/-- One payload octet handed on by the Feed Receiver (R167, R174). -/
def payloadOctet (o : Octet) (s : State) : State :=
  examine (bufferLimit + 2) [o] s

/-- The payload stream has broken: a message being reassembled is discarded and counted bad, without a re-examination
(R176). -/
def breakStream (s : State) : State :=
  match s.unpacker.state with
  | .searching => s
  | .length => countBad s
  | .body _ => countBad s

end Sys2Proof.Machine
end

