-- ==== Sys2Proof/Machine/DirectoryCommands.lean ====
section
/-! DEFINITION. The meanings of the commands of the Place Directory (chapter 4). -/

namespace Sys2Proof.Machine

/-- WRITE_PLACE (R76, R86). -/
def execWritePlace (h : Header) (f : WriteFields) (s : State) : Host.Outcome State Fault Refusal :=
  .next (feedEvent (acceptWrite h f) s)

/-- WRITE_COMPLETE (R77). -/
def execWriteComplete (verified : Bool) (s : State) : Host.Outcome State Fault Refusal :=
  .next (event (completeWrite verified) s)

/-- ERASE_SECTOR (R78). -/
def execEraseSector (h : Header) (sector : Nat) (s : State) : Host.Outcome State Fault Refusal :=
  .next (feedEvent (acceptErase h sector) s)

/-- GATHER_WINDOW_EXPIRY (R81). -/
def execGatherWindowExpiry (s : State) : Host.Outcome State Fault Refusal :=
  .next (event gatherExpiry s)

/-- SECTOR_ERASE_COMPLETE (R81, R82, R84). -/
def execSectorEraseComplete (s : State) : Host.Outcome State Fault Refusal :=
  .next (event sectorDone s)

/-- SUSPEND_ERASE (R83). -/
def execSuspendErase (h : Header) (s : State) : Host.Outcome State Fault Refusal :=
  .next (feedEvent (acceptSuspend h) s)

/-- SUSPENSION_COMPLETE (R84). -/
def execSuspensionComplete (s : State) : Host.Outcome State Fault Refusal :=
  .next (event suspensionDone s)

/-- RESUME_ERASE (R85). -/
def execResumeErase (h : Header) (s : State) : Host.Outcome State Fault Refusal :=
  .next (feedEvent (acceptResume h) s)

/-- LOCK_SECTORS (R73). -/
def execLockSectors (h : Header) (sectors : Byte) (s : State) : Host.Outcome State Fault Refusal :=
  .next (feedEvent (acceptLock h sectors) s)

/-- FREE_SECTORS (R73). -/
def execFreeSectors (h : Header) (sectors : Byte) (s : State) : Host.Outcome State Fault Refusal :=
  .next (feedEvent (acceptFree h sectors) s)

/-- LOCK_CHANGE_COMPLETE (R74). -/
def execLockChangeComplete (s : State) : Host.Outcome State Fault Refusal :=
  .next (event lockDone s)

/-- READ_PLACE (R90). -/
def execReadPlace (h : Header) (place : Nat) (s : State) : Host.Outcome State Fault Refusal :=
  .next (feedEvent (acceptReadPlace h place) s)

/-- SCAN_END (R93, R94, R163). -/
def execScanEnd (s : State) : Host.Outcome State Fault Refusal :=
  .next (event scanDone s)

end Sys2Proof.Machine
end

