-- ==== Sys2Proof/Machine/FeedLine.lean ====
section
/-! DEFINITION. The Feed Receiver: alignment, superframe lock, the overhead record and station-state de-bounce (sections 8.2
to 8.5). -/

namespace Sys2Proof.Machine

/-! ### Patterns -/

/-- The alignment pattern of an even frame (R162). -/
def evenPattern : Byte := 0x1B

/-- The alignment pattern of an odd frame (R162). -/
def oddPattern : Byte := 0xE4

/-- The alignment pattern of a frame's parity. -/
def patternOf (even : Bool) : Byte :=
  if even then evenPattern else oddPattern

/-- The superframe marker (R162). -/
def superframeMarker : Byte := 0xA5

/-- Whether an octet holds a value and has no stop-bit error. -/
def holdsGood (o : Octet) (v : Byte) : Bool :=
  decide (o.data = v) && !o.stopError

/-! ### Station state -/

/-- The station state a code gives, if it is usable (R169). -/
def stationOf (code : Byte) : Option StationState :=
  match code.toNat with
  | 0 => some .normal
  | 1 => some .closed
  | 2 => some .alert
  | 3 => some .dark
  | _ => none

/-- De-bounce of a valid record's state code (R170): the candidate, and the held station state with the board state that
follows when it takes a new value. Taking the value it already holds is not handed on. -/
def debounceStation (code : Byte) (s : State) : State :=
  match stationOf code with
  | none => s.withFeed { s.feed with candidate := none }
  | some st =>
    if s.settings.debounce = false ∨ s.feed.candidate = some st then
      (if st = s.feed.station then s.withFeed { s.feed with candidate := some st }
      else selectBoard (s.withFeed { s.feed with candidate := some st, station := st }))
    else s.withFeed { s.feed with candidate := some st }

/-! ### The overhead record -/

/-- Whether five gathered octets make a valid record: no stop-bit error, and a sum of 0 modulo 256 (R169). -/
def recordValid (o : List Octet) : Bool :=
  o.all (fun x => !x.stopError) && decide ((o.map Octet.data).foldl (· + ·) 0 = 0)

/-- An overhead record judged and, when valid, taken: it becomes the last record, freshness is restarted, its station time
goes to the Timekeeper and its station state to de-bounce (R169, R49, R35, R170). -/
def judgeRecord (o1 o2 o3 o4 o5 : Octet) (s : State) : State :=
  if recordValid [o1, o2, o3, o4, o5] then
    let minute := number2 o1.data o2.data
    let second := o3.data.toNat
    let s := s.withFeed { s.feed with
      lastRecord := some { minute := minute, second := second, state := o4.data } }
    debounceStation o4.data (takeStationTime minute second (refreshFeed s))
  else s

/-- Five gathered octets are judged (R168). -/
def judgeGathered (g : List Octet) (s : State) : State :=
  match g with
  | [o1, o2, o3, o4, o5] => judgeRecord o1 o2 o3 o4 o5 s
  | _ => s

/-! ### The superframe -/

/-- An overhead octet while the superframe position is unknown (R168): a marker in an even frame takes the lock when it comes
six frames after the remembered sighting, or is remembered in its place. -/
def seekMarker (o : Octet) (even : Bool) (f : FeedReceiver) : FeedReceiver :=
  let age := f.sighting.map (· + 1)
  if even && holdsGood o superframeMarker then
    (if age = some 6 then { f with position := some 0, sighting := none, gathered := [] }
    else { f with sighting := some 0 })
  else { f with sighting := age }

/-- The overhead octet of a received frame (R168). -/
def overheadOctet (o : Octet) (even : Bool) (s : State) : State :=
  match s.feed.position with
  | none => s.withFeed (seekMarker o even s.feed)
  | some p =>
    if p = 5 then
      (if holdsGood o superframeMarker then s.withFeed { s.feed with position := some 0, gathered := [] }
      else s.withFeed { s.feed with position := none, sighting := none, gathered := [], candidate := none })
    else
      let gathered := s.feed.gathered ++ [o]
      let s := s.withFeed { s.feed with position := some (p + 1), gathered := gathered }
      if p + 1 = 5 then judgeGathered gathered s else s

/-! ### Alignment -/

/-- Whether position p of a span qualifies (R164). -/
def qualifies (span : List Octet) (p : Nat) : Bool :=
  match span[p]?, span[p + 32]? with
  | some a, some b =>
    !a.stopError && !b.stopError &&
      ((decide (a.data = evenPattern) && decide (b.data = oddPattern)) ||
        (decide (a.data = oddPattern) && decide (b.data = evenPattern)))
  | _, _ => false

/-- The position a span of 64 octets yields under the mimic check, if any (R164). -/
def spanPosition (mimicCheck : Bool) (span : List Octet) : Option Nat :=
  match (List.range 32).filter (qualifies span) with
  | [] => none
  | [p] => some p
  | p :: _ :: _ => if mimicCheck then none else some p

/-- The span judged at its last octet (R164). -/
def judgeSpan (mimicCheck : Bool) (span : List Octet) : Alignment :=
  match spanPosition mimicCheck span with
  | none => .hunting []
  | some p =>
    match span[p]? with
    | some a => .confirming p a.data
    | none => .hunting []

/-- Change the alignment. -/
def withAlignment (a : Alignment) (s : State) : State :=
  s.withFeed { s.feed with alignment := a }

/-- Alignment is lost (R166). -/
def loseAlignment (s : State) : State :=
  breakStream (s.withFeed { s.feed with
    alignment := .hunting [], position := none, sighting := none, gathered := [], candidate := none,
    lossCount := saturate (s.feed.lossCount + 1) })

/-- The alignment octet at a candidate position (R165). -/
def judgeCandidate (o : Octet) (pattern : Byte) (s : State) : State :=
  if holdsGood o pattern then
    s.withFeed { s.feed with
      alignment := .aligned 1 (decide (o.data = evenPattern)) [], position := none, sighting := none, gathered := [] }
  else withAlignment (.hunting []) s

/-- An alignment octet in ALIGNED: its error mark is recorded and the errors among the last N frames are counted (R166). -/
def judgeAlignment (o : Octet) (even : Bool) (marks : List Bool) (s : State) : State :=
  let marks := ((!holdsGood o (patternOf even)) :: marks).take 6
  if ((marks.take s.settings.alignWindow).filter id).length < 2 then withAlignment (.aligned 1 even marks) s
  else loseAlignment s

/-- The octet after an octet of an ALIGNED frame: the next of the frame, or octet 0 of a frame of the other parity (R162,
R166). -/
def nextOctet (octet : Nat) (even : Bool) (marks : List Bool) : Alignment :=
  if octet = 31 then .aligned 0 (!even) marks else .aligned (octet + 1) even marks

/-- The Feed Receiver takes one octet (R161, R164 to R167). -/
def receiveOctet (o : Octet) (s : State) : State :=
  match s.feed.alignment with
  | .hunting span =>
    let span := span ++ [o]
    if span.length < 64 then withAlignment (.hunting span) s
    else withAlignment (judgeSpan s.settings.mimicCheck span) s
  | .confirming 0 pattern => judgeCandidate o pattern s
  | .confirming (skip + 1) pattern => withAlignment (.confirming skip pattern) s
  | .aligned octet even marks =>
    if octet = 0 then judgeAlignment o even marks s
    else
      let s := withAlignment (nextOctet octet even marks) s
      if octet = 1 then overheadOctet o even s else payloadOctet o s

/-- An octet whose start bit has come: it is taken, and from then on the next is expected (R161, R163). -/
def takeOnLine (o : Octet) (s : State) : State :=
  receiveOctet o (s.withFeed { s.feed with started := true })

/-- A missing octet: value 0x00 with a stop-bit error (R161). -/
def missing : Octet :=
  { data := 0, stopError := true }

/-- An octet time without a start bit: a missing octet, once the receiver has taken an octet since its release; before the
first no octet is expected and none is missing (R161, R163). -/
def missOctet (s : State) : State :=
  if s.feed.started then receiveOctet missing s else s

end Sys2Proof.Machine
end

