-- ==== Sys2Proof/Machine/FeedCommands.lean ====
section
/-! DEFINITION. The meanings of the commands of the feed line: octets and overhead records (chapter 8). -/

namespace Sys2Proof.Machine

/-- FEED_OCTET: the Feed Receiver takes an octet (R161), with all that it completes in the event: a span, an alignment, an
overhead record, a message dispatched to its owner (R164 to R169, R174 to R177). -/
def execFeedOctet (o : Octet) (s : State) : Host.Outcome State Fault Refusal :=
  .next (feedEvent (takeOnLine o) s)

/-- MISSING_OCTET: an octet time without a start bit is taken as an octet of value 0x00 with a stop-bit error, once an octet
has been taken since the release (R161, R163). -/
def execMissingOctet (s : State) : Host.Outcome State Fault Refusal :=
  .next (feedEvent missOctet s)

/-- OVERHEAD_RECORD: five gathered octets are judged and a valid record is taken (R169), whatever the alignment and the
superframe position (DESIGN CHOICE, log entry 38). -/
def execOverheadRecord (o1 o2 o3 o4 o5 : Octet) (s : State) : Host.Outcome State Fault Refusal :=
  .next (feedEvent (judgeRecord o1 o2 o3 o4 o5) s)

end Sys2Proof.Machine
end

