-- ==== Sys2Proof/Machine/PaintCommands.lean ====
section
/-! DEFINITION. The meanings of the commands of the Paint Engine (chapter 6). -/

namespace Sys2Proof.Machine

/-- HOLD_BOARD (R141). -/
def execHoldBoard (h : Header) (s : State) : Host.Outcome State Fault Refusal :=
  .next (feedEvent (acceptHold h) s)

/-- RELEASE_BOARD (R142). -/
def execReleaseBoard (h : Header) (s : State) : Host.Outcome State Fault Refusal :=
  .next (feedEvent (acceptRelease h) s)

/-- HOLD_LAPSE (R143). -/
def execHoldLapse (s : State) : Host.Outcome State Fault Refusal :=
  .next (event lapseHold s)

/-- SET_BANNER (R138). -/
def execSetBanner (h : Header) (f : BannerFields) (s : State) : Host.Outcome State Fault Refusal :=
  .next (feedEvent (acceptSetBanner h f) s)

/-- CLEAR_BANNER (R139). -/
def execClearBanner (h : Header) (s : State) : Host.Outcome State Fault Refusal :=
  .next (feedEvent (acceptClearBanner h) s)

/-- BANNER_EXPIRY (R139). -/
def execBannerExpiry (s : State) : Host.Outcome State Fault Refusal :=
  .next (event expireBanner s)

/-- TABLE_JOB_COMPLETE (R130, R131). -/
def execTableJobComplete (s : State) : Host.Outcome State Fault Refusal :=
  .next (event tableJobDone s)

/-- CLOCK_JOB_COMPLETE (R130, R132). -/
def execClockJobComplete (s : State) : Host.Outcome State Fault Refusal :=
  .next (event clockJobDone s)

/-- CALLING_STEP_COMPLETE (R136). -/
def execCallingStepComplete (s : State) : Host.Outcome State Fault Refusal :=
  .next (event callingStepDone s)

/-- BANNER_COMPOSE_COMPLETE (R140). -/
def execBannerComposeComplete (s : State) : Host.Outcome State Fault Refusal :=
  .next (event bannerComposeDone s)

/-- BANNER_STEP_COMPLETE (R136). -/
def execBannerStepComplete (s : State) : Host.Outcome State Fault Refusal :=
  .next (event bannerStepDone s)

/-- SCROLL_PAUSE_EXPIRY (R135). -/
def execScrollPauseExpiry (which : ScrollId) (s : State) : Host.Outcome State Fault Refusal :=
  .next (event (endPause which) s)

/-- SCROLL_STEP_DUE (R135). -/
def execScrollStepDue (which : ScrollId) (s : State) : Host.Outcome State Fault Refusal :=
  .next (event (stepDue which) s)

end Sys2Proof.Machine
end

