-- ==== Sys2Proof/Machine/ReadContent.lean ====
section
/-! DEFINITION. The content of the three reads, encoded by R184: READ SERVICE (R28), READ PLACE (R90) and READ BOARD
(R185). -/

namespace Sys2Proof.Machine

/-! ### READ SERVICE -/

/-- One octet. -/
def one (n : Nat) : List Byte := [octet1 n]

/-- A list of calling stops: a count octet, then place number and flags of each (R179). -/
def stopsOctets (stops : List Stop) : List Byte :=
  octet1 stops.length :: stops.flatMap (fun st =>
    octets2 st.place ++ [octet1 (st.request.toNat + 2 * st.skipped.toNat)])

/-- The number of a leave cause in the order listed in R28 (R184). -/
def leaveCauseNumber : LeaveCause → Nat
  | .retired => 0
  | .timedOut => 1
  | .rolledOff => 2

/-- The leave cause of a record, if it is LEAVING. -/
def Record.cause (r : Record) : Option LeaveCause :=
  match r.life with
  | .live => none
  | .leaving c => some c

/-- The content of a DONE answer to READ SERVICE (R28). -/
def serviceContent (s : State) (r : Record) : List Byte :=
  let position := positionOf r.key s.table.order
  octets2 r.key ++ [r.revision]
    ++ signed2 r.scheduled
    ++ one (runStateCode r.state)
    ++ present signed2 r.delay
    ++ textOctets r.platform ++ octets2 r.destination ++ present octets2 r.via
    ++ stopsOctets r.stops
    ++ present one r.train
    ++ one (if r.isLive then 0 else 1)
    ++ present (fun c => one (leaveCauseNumber c)) r.cause
    ++ signed2 (orderKey r)
    ++ [yesNo (visibleUnder s.settings.filter r)]
    ++ present one position
    ++ [yesNo (match position with
        | some p => decide (p < s.shownCount)
        | none => false)]

/-! ### READ PLACE -/

/-- The content of an answer to READ PLACE (R90). -/
def placeContent (s : State) (place : Nat) : List Byte :=
  let state := slotState s.dir place
  let shown := decide (state = .valid) && (bankBusy s.dir.op (bankOfPlace place)).isNone
  let names := if state ≠ .valid then 2 else if shown then 0 else 1
  let e := placeEntry s.dir place
  let given := fun (t : Text) => if shown then some t else none
  octets2 place
    ++ one (slotStateCode state)
    ++ octets2 (cellGet 0 s.dir.counts place)
    ++ [yesNo (s.dir.locks.contains (sectorOf place)), yesNo (s.dir.op.eraseSet.contains (sectorOf place))]
    ++ one names
    ++ present textOctets (given e.full)
    ++ present textOctets (if shown then e.short else none)
    ++ present id (given e.code)

/-! ### READ BOARD -/

/-- Section 1, the Timekeeper (R52). -/
def timeSection (s : State) : List Byte :=
  octets2 s.time.minute ++ one s.time.second ++ octets2 s.time.milli
    ++ [yesNo s.time.valid] ++ octets2 s.time.now ++ [yesNo s.time.rollHold] ++ one s.time.inconsistent
    ++ one (match s.time.freshness with
        | .fresh => 0
        | .lapsed => 1)
    ++ octets2 (s.time.freshTimer / 1000)

/-- Section 2, the Service Table (R68). -/
def tableSection (s : State) : List Byte :=
  one (recordsOf s.table.slots).length ++ one (leavingCount s.table.slots)
    ++ (match s.table.window with
        | .closed => [0, 0, 0]
        | .opened expiry cap =>
          one 1 ++ present octets2 (some (expiry - s.elapsed)) ++ present octets2 (some (cap - s.elapsed)))

/-- The code of an operation state (R75). -/
def dirOpCode : DirOp → Nat
  | .scanning => 0
  | .ready => 1
  | .writing _ => 2
  | .locking _ => 3
  | .gathering _ _ => 4
  | .erasing _ _ => 5
  | .suspending _ _ _ _ => 6
  | .suspended _ _ _ => 7
  | .suspendedWriting _ _ _ _ => 8

/-- The suspension cause, in SUSPENDING, SUSPENDED and SUSPENDED_WRITING (R91). -/
def DirOp.cause : DirOp → Option SuspendCause
  | .suspending _ _ c _ => some c
  | .suspended _ _ c => some c
  | .suspendedWriting _ _ c _ => some c
  | _ => none

/-- The current sector, in ERASING and the suspended states (R91), among which SUSPENDING is counted (DEDUCED, log entry
19). -/
def DirOp.current : DirOp → Option Current
  | .erasing _ c => some c
  | .suspending _ c _ _ => some c
  | .suspended _ c _ => some c
  | .suspendedWriting _ c _ _ => some c
  | _ => none

/-- The joined list (R78, R91). -/
def DirOp.joined : DirOp → List Header
  | .gathering e _ => e.joined
  | .erasing e _ => e.joined
  | .suspending e _ _ _ => e.joined
  | .suspended e _ _ => e.joined
  | .suspendedWriting e _ _ _ => e.joined
  | _ => []

/-- How many slots hold a state that is not BLANK. -/
def slotCount (state : SlotState) (d : Directory) : Nat :=
  (d.slotStates.filter (fun c => decide (c.2 = state))).length

/-- Section 3, the Place Directory (R91). The current sector and its remaining time stand under one presence octet (DEDUCED,
log entry 19), and the joined list is sent as the number of its messages (DEDUCED, log entry 37). -/
def directorySection (s : State) : List Byte :=
  one (dirOpCode s.dir.op)
    ++ present (fun c => one (match c with
        | .commanded => 0
        | .paint => 1)) s.dir.op.cause
    ++ one (maskOf s.dir.op.eraseSet)
    ++ present (fun (c : Current) => one c.sector ++ octets2 c.remaining) s.dir.op.current
    ++ one s.dir.op.joined.length
    ++ one (maskOf s.dir.locks)
    ++ [yesNo (bankBusy s.dir.op .a).isSome, yesNo (bankBusy s.dir.op .b).isSome]
    ++ [yesNo s.paint.suspendRequest]
    ++ octets2 (slotCount .valid s.dir) ++ octets2 (slotCount .defective s.dir)

/-- A layout record: its kind, numbered in the order of R122 with NONE as 7, then the items of that kind (R184). -/
def layoutOctets : LayoutRecord → List Byte
  | .departure key step via platform test =>
    one 0 ++ octets2 key ++ one step ++ [yesNo via, yesNo platform.isSome]
      ++ present (fun f => one (match f with
          | .large => 0
          | .small => 1
          | .cut => 2)) platform
      ++ one test
  | .calling key width mode reduction stops =>
    one 1 ++ octets2 key ++ octets2 width
      ++ one (match mode with
          | .static => 0
          | .strip => 1)
      ++ one (match reduction with
          | .none => 0
          | .shortNames => 1
          | .trainDropped => 2
          | .cut => 3)
      ++ one stops
  | .clock minute => one 2 ++ present octets2 minute
  | .banner width mode =>
    one 3 ++ octets2 width ++ one (match mode with
      | .static => 0
      | .strip => 1)
  | .screen text font =>
    one 4 ++ one (match text with
      | .listen => 0
      | .follow => 1) ++ one (match font with
      | .large => 0
      | .small => 1)
  | .empty => one 5
  | .blank => one 6
  | .none => one 7

/-- Section 4, layout (R123). -/
def layoutSection (s : State) : List Byte :=
  one s.geometry ++ octets2 s.columns ++ one s.lines ++ [yesNo (platformField s)] ++ one (destinationWidth s)
    ++ s.paint.layouts.flatMap layoutOctets

/-- The number of a slot in the order of R124. -/
def slotNumber : Slot → Nat
  | .table => 0
  | .scroll => 1
  | .clock => 2
  | .banner => 3

/-- The slot of a job. -/
def Job.slot : Job → Slot
  | .table _ _ => .table
  | .callingStep _ => .scroll
  | .clock _ => .clock
  | .bannerCompose _ => .banner
  | .bannerStep _ => .banner

/-- The line a BUSY arbiter records, for TABLE (R124). -/
def Job.line : Job → Option Nat
  | .table line _ => some line
  | _ => none

/-- A scroll as READ BOARD gives it: its state, then offset and strip width when not STILL (R147). -/
def scrollOctets : Scroll → List Byte
  | .still => [0, 0, 0]
  | .paused strip _ => one 1 ++ present signed2 (some 0) ++ present octets2 (some strip.length)
  | .moving strip offset _ => one 2 ++ present signed2 (some offset) ++ present octets2 (some strip.length)

/-- A remaining duration in whole seconds, rounded up so that a running timer reads at least 1 (R147). -/
def secondsLeft (ms : Nat) : Nat :=
  (ms + 999) / 1000

/-- Section 5, the Paint Engine (R147). The slot enables are on-or-off octets as in R186; the suspend request is numbered in
the order listed, standing 0 and withdrawn 1 (log entry 21). -/
def paintSection (s : State) : List Byte :=
  let p := s.paint
  one (if p.job.isSome then 1 else 0)
    ++ present (fun j => one (slotNumber j)) (p.job.map Job.slot)
    ++ present one (p.job.bind Job.line)
    ++ one (slotNumber p.lastGranted)
    ++ one (maskOf p.dirty)
    ++ [yesNo p.callingStep, yesNo p.clockRequest, yesNo p.bannerCompose, yesNo p.bannerStep]
    ++ [yesNo s.settings.scrollEnable, yesNo s.settings.clockEnable, yesNo s.settings.bannerEnable]
    ++ (match p.hold with
        | .free => one 0 ++ [0]
        | .held remaining => one 1 ++ present octets2 (some remaining)
        | .lapsed => one 2 ++ [0])
    ++ present (fun (b : Banner) => octets2 b.width ++ present (fun ms => octets2 (secondsLeft ms)) b.remaining) p.banner
    ++ scrollOctets p.callingScroll ++ scrollOctets p.bannerScroll
    ++ one (if p.suspendRequest then 0 else 1)

/-- The code of a board state (R154). -/
def boardCode : BoardState → Nat
  | .starting => 0
  | .showing => 1
  | .closed => 2
  | .unavailable => 3
  | .alert => 4
  | .dark => 5

/-- The code of a station state (R169). -/
def stationCode : StationState → Nat
  | .normal => 0
  | .closed => 1
  | .alert => 2
  | .dark => 3

/-- The lines holding a pending image (R160). -/
def pendingLines (f : FrameStore) : List Nat :=
  (List.range f.pending.length).filter (fun n => (f.pending.getD n none).isSome)

/-- Section 6, Frame Store and board state (R160). The blank output and the driver are numbered in the order listed. -/
def frameSection (s : State) : List Byte :=
  one (boardCode s.board) ++ one (stationCode s.feed.station) ++ one (maskOf (pendingLines s.frame))
    ++ one (if s.frame.blank then 0 else 1) ++ one (if s.frame.shift.isSome then 0 else 1)

/-- The code of an alignment state (R178). -/
def alignmentCode : Alignment → Nat
  | .hunting _ => 0
  | .confirming _ _ => 1
  | .aligned _ _ _ => 2

/-- The errors among the marks held; 0 outside ALIGNED (R173). -/
def windowErrors : Alignment → Nat
  | .aligned _ _ marks => (marks.filter id).length
  | .hunting _ => 0
  | .confirming _ _ => 0

/-- Section 7, the Feed Receiver (R173). The position Unknown and the candidate None are sent as items that are absent, by a
presence octet of 0 (DEDUCED, log entry 19). -/
def feedSection (s : State) : List Byte :=
  one (alignmentCode s.feed.alignment) ++ one (windowErrors s.feed.alignment) ++ present one s.feed.position
    ++ present (fun (r : OverheadRecord) => octets2 r.minute ++ one r.second ++ [r.state]) s.feed.lastRecord
    ++ present (fun st => one (stationCode st)) s.feed.candidate
    ++ one (stationCode s.feed.station) ++ octets2 s.feed.lossCount

/-- Section 8, Message Unpacker and Result Sender (R185). -/
def messageSection (s : State) : List Byte :=
  one (match s.unpacker.state with
    | .searching => 0
    | .length => 1
    | .body _ => 2)
    ++ octets2 s.unpacker.badCount ++ one s.results.queue.length ++ [yesNo s.results.lost]

/-- Section 9, settings, geometry code and staff key (R191), each setting in its encoding of R186. The key is a yes-or-no
item: 1 asserted, 0 not (DEDUCED, log entry 21). -/
def settingsSection (s : State) : List Byte :=
  let t := s.settings
  octet1 t.filter.length :: t.filter.flatMap textOctets
    ++ octets2 t.origin ++ one t.sweepLength ++ one t.holdover ++ one t.holdLimit ++ one t.countdown
    ++ one t.lateThreshold ++ octets2 t.horizon ++ one t.grace ++ one t.dwell ++ one t.scrollRate
    ++ one t.scrollPause
    ++ [yesNo t.scrollEnable, yesNo t.clockEnable, yesNo t.bannerEnable, yesNo t.autoSuspend]
    ++ one t.alignWindow ++ [yesNo t.mimicCheck, yesNo t.debounce, yesNo t.smallFont]
    ++ one s.geometry ++ [yesNo s.key.asserted]

/-- A section: its code, a length octet counting its items' octets, and the items (R185, log entry 22). -/
def boardSection (code : Nat) (items : List Byte) : List Byte :=
  octet1 code :: octet1 items.length :: items

/-- The content of an answer to READ BOARD (R185). -/
def boardContent (s : State) : List Byte :=
  boardSection 1 (timeSection s) ++ boardSection 2 (tableSection s) ++ boardSection 3 (directorySection s)
    ++ boardSection 4 (layoutSection s) ++ boardSection 5 (paintSection s) ++ boardSection 6 (frameSection s)
    ++ boardSection 7 (feedSection s) ++ boardSection 8 (messageSection s) ++ boardSection 9 (settingsSection s)

end Sys2Proof.Machine
end

