-- ==== Sys2Proof/Machine/ReturnLine.lean ====
section
/-! DEFINITION. The return line: framing, the return overhead record and the sending of results (sections 8.6 and 9.6). -/

namespace Sys2Proof.Machine

/-! ### Records -/

/-- The outcome and content of a read at its capture (R27, R90, R184, R185). -/
def readOutcome (s : State) : ReadObject → Nat × List Byte
  | .service key =>
    match findRecord key s.table.slots with
    | some r => (outDone, serviceContent s r)
    | none => (outNoSuchService, [])
  | .place number => (outDone, placeContent s number)
  | .board => (outDone, boardContent s)

/-- The kind code of an accepted read. -/
def readKind : ReadObject → Byte
  | .service _ => kindReadService
  | .place _ => kindReadPlace
  | .board => kindReadBoard

/-- A result record: marker, length, kind, tag, outcome, detail, content and CRC (R178). -/
def resultRecord (kind tag : Byte) (outcome detail : Nat) (content : List Byte) : List Byte :=
  let body := octet1 (content.length + 7) :: kind :: tag :: octet1 outcome :: (octets2 detail ++ content)
  messageMarker :: (body ++ crcOctets body)

/-- The record of an entry, decided at its capture (R184). -/
def entryRecord (s : State) : Entry → List Byte
  | .result kind tag outcome detail => resultRecord kind tag outcome detail []
  | .read tag object =>
    let out := readOutcome s object
    resultRecord (readKind object) tag out.1 0 out.2

/-! ### The return overhead record -/

/-- The condition octet (R172, R178). -/
def conditionOctet (s : State) : Byte :=
  let aligned := alignmentCode s.feed.alignment
  octet1 (aligned + 4 * s.feed.position.isSome.toNat + 8 * (decide (s.time.freshness = .lapsed)).toNat
    + 16 * (decide (aligned ≠ 2)).toNat + 32 * s.results.lost.toNat)

/-- The result queue's free count (R182). -/
def freeCount (s : State) : Nat :=
  queueLimit - s.results.queue.length

/-- The five octets of the return overhead record (R172, R178). -/
def returnRecord (s : State) : List Byte :=
  let four := [conditionOctet s, octet1 (boardCode s.board), octet1 (freeCount s), octet1 (dirOpCode s.dir.op)]
  four ++ [checkOctet four]

/-! ### Octets -/

/-- The next octet of the return frame falls to this place: the frame counter and octet number step on (R171). -/
def stepReturn (r : ResultSender) : ResultSender :=
  if r.octet = 31 then { r with octet := 0, frame := if r.frame = 5 then 0 else r.frame + 1 }
  else { r with octet := r.octet + 1 }

/-- Send an octet on the return line and step to the next. -/
def send (b : Byte) (r : ResultSender) : ResultSender :=
  stepReturn { r with line := some b }

/-- An overhead octet: the marker in frame 0; in frame 1 the record is captured, the results-lost flag read into it and
cleared, and its first octet sent; then the rest (R171, R172). -/
def sendOverhead (s : State) : State :=
  let r := s.results
  if r.frame = 0 then s.withResults (send superframeMarker r)
  else if r.frame = 1 then
    let record := returnRecord s
    s.withResults (send (record.headD 0) { r with overhead := record, lost := false })
  else s.withResults (send (r.overhead.getD (r.frame - 1) 0) r)

/-- A payload octet: the next of the record in progress; else the head entry is captured and its marker sent; else fill
(R184). -/
def sendPayload (s : State) : State :=
  let r := s.results
  match r.record with
  | b :: rest => s.withResults (send b { r with record := rest })
  | [] =>
    match r.queue with
    | e :: queue =>
      let record := entryRecord (s.withResults { r with queue := queue }) e
      s.withResults (send (record.headD 0) { r with queue := queue, record := record.drop 1 })
    | [] => s.withResults (send 0 r)

/-- A return line octet slot comes due (R171, R184). -/
def returnSlot (s : State) : State :=
  let r := s.results
  if r.octet = 0 then s.withResults (send (patternOf (r.frame % 2 == 0)) r)
  else if r.octet = 1 then sendOverhead s
  else sendPayload s

end Sys2Proof.Machine
end

