-- ==== Sys2Proof/Machine/Tick.lean ====
section
/-! DEFINITION. The part's own time: what one millisecond with no command waiting does (section 1.5 of the scope file; log
entry 7). Every running timer moves on together, and each that has reached its limit then raises its event, in a fixed order.
Operations whose duration the manual only bounds (a write, a scan, a suspension, a paint job) end by their own command. -/

namespace Sys2Proof.Machine

/-! ### Timers moving on -/

/-- One millisecond in ns. -/
def tickNs : Int := 1000000

/-- The timers the directory's operation state holds (R74, R79, R81, R84). A sector that is not begun does not erase. -/
def advanceOp : DirOp → DirOp
  | .locking l => .locking { l with remaining := l.remaining - 1 }
  | .gathering e window => .gathering e (window - 1)
  | .erasing e c => .erasing e { c with remaining := c.remaining - 1 }
  | .suspending e c cause merged =>
    .suspending e (if c.begun then { c with remaining := c.remaining - 1 } else c) cause merged
  | .suspended e c cause => .suspended e c cause
  | .suspendedWriting e c cause w => .suspendedWriting e c cause w
  | .scanning => .scanning
  | .ready => .ready
  | .writing w => .writing w

/-- A scroll's pause or step timer (R134, R135). -/
def advanceScroll : Scroll → Scroll
  | .still => .still
  | .paused strip wait => .paused strip (wait - 1)
  | .moving strip offset wait => .moving strip offset (wait - tickNs)

/-- The hold timer (R141). -/
def advanceHold : Hold → Hold
  | .held remaining => .held (remaining - 1)
  | .free => .free
  | .lapsed => .lapsed

/-- The banner's duration timer (R138). -/
def advanceBanner (b : Banner) : Banner :=
  { b with remaining := b.remaining.map (· - 1) }

/-- Every running timer one millisecond on, but board time, whose advance is an event of its own. -/
def advanceTimers (s : State) : State :=
  let s := s.withElapsed (s.elapsed + 1)
  let s := s.withTime { s.time with
    freshTimer := match s.time.freshness with
      | .fresh => s.time.freshTimer + 1
      | .lapsed => s.time.freshTimer }
  let s := s.withDir { s.dir with op := advanceOp s.dir.op }
  let s := s.withPaint { s.paint with
    hold := advanceHold s.paint.hold
    banner := s.paint.banner.map advanceBanner
    callingScroll := advanceScroll s.paint.callingScroll
    bannerScroll := advanceScroll s.paint.bannerScroll }
  let s := s.withFrame { s.frame with
    refreshTimer := s.frame.refreshTimer + 1
    shift := s.frame.shift.map (fun sh => { sh with remaining := sh.remaining - tickNs }) }
  s.withKey { s.key with timer := s.key.timer.map (· + 1) }

/-! ### Timers falling due -/

/-- Raise an event when its timer is due. -/
def fireWhen (due : State → Bool) (f : State → State) (s : State) : State :=
  if due s then settle (f s) else s

/-- Running board time one millisecond on, with the minute event when the minute advances (R31). -/
def runClock (s : State) : State :=
  if s.time.valid then
    if s.time.milli < 999 then s.withTime { s.time with milli := s.time.milli + 1 }
    else if s.time.second < 59 then s.withTime { s.time with milli := 0, second := s.time.second + 1 }
    else settle (advanceMinute s)
  else s

/-- The freshness timer is at the holdover limit (R49). -/
def freshnessDue (s : State) : Bool :=
  decide (s.time.freshness = .fresh) && decide (holdoverMs s ≤ s.time.freshTimer)

/-- The sweep window's expiry has come (R54). -/
def windowDue (s : State) : Bool :=
  match s.table.window with
  | .closed => false
  | .opened expiry _ => decide (expiry ≤ s.elapsed)

/-- The gather window has run out (R79). -/
def gatherDue (s : State) : Bool :=
  match s.dir.op with
  | .gathering _ window => decide (window = 0)
  | _ => false

/-- The current sector's erasing time has run out (R81). -/
def eraseDue (s : State) : Bool :=
  match s.dir.op with
  | .erasing _ c => decide (c.remaining = 0)
  | .suspending _ c _ _ => c.begun && decide (c.remaining = 0)
  | _ => false

/-- The lock change's time has run out (R74). -/
def lockDue (s : State) : Bool :=
  match s.dir.op with
  | .locking l => decide (l.remaining = 0)
  | _ => false

/-- The hold timer has reached its limit (R143). -/
def holdDue (s : State) : Bool :=
  match s.paint.hold with
  | .held remaining => decide (remaining = 0)
  | .free => false
  | .lapsed => false

/-- The banner's duration has run out (R139). -/
def bannerDue (s : State) : Bool :=
  match s.paint.banner with
  | some b => decide (b.remaining = some 0)
  | none => false

/-- A scroll's pause has run out (R135). -/
def pauseDue (which : ScrollId) (s : State) : Bool :=
  match scrollOf s.paint which with
  | .paused _ wait => decide (wait = 0)
  | .still => false
  | .moving _ _ _ => false

/-- A scroll's step timer has run out (R135). -/
def stepTimerDue (which : ScrollId) (s : State) : Bool :=
  match scrollOf s.paint which with
  | .moving _ _ wait => decide (wait ≤ 0)
  | .still => false
  | .paused _ _ => false

/-- The refresh timer has reached its period (R150). -/
def refreshDue (s : State) : Bool :=
  decide (refreshMs ≤ s.frame.refreshTimer)

/-- The shift has run its time (R151). -/
def shiftDue (s : State) : Bool :=
  match s.frame.shift with
  | some sh => decide (sh.remaining ≤ 0)
  | none => false

/-- The staff key input has held its new level for 20 ms (R190). -/
def keyDue (s : State) : Bool :=
  match s.key.timer with
  | some t => decide (keyMs ≤ t)
  | none => false

/-- One millisecond of the running part: the timers move on, then every event that has fallen due takes place, one after
another in this order. -/
def tick (s : State) : State :=
  let s := advanceTimers s
  let s := runClock s
  let s := fireWhen freshnessDue lapseFeed s
  let s := fireWhen windowDue windowExpiry s
  let s := fireWhen gatherDue gatherExpiry s
  let s := fireWhen eraseDue sectorDone s
  let s := fireWhen lockDue lockDone s
  let s := fireWhen holdDue lapseHold s
  let s := fireWhen bannerDue expireBanner s
  let s := fireWhen (pauseDue .calling) (endPause .calling) s
  let s := fireWhen (pauseDue .banner) (endPause .banner) s
  let s := fireWhen (stepTimerDue .calling) (stepDue .calling) s
  let s := fireWhen (stepTimerDue .banner) (stepDue .banner) s
  let s := fireWhen shiftDue latchShift s
  let s := fireWhen refreshDue refreshFrame s
  fireWhen keyDue keyDebounced s

/-- The part with no command waiting: one millisecond passes while it runs, none while it is held in reset. -/
def idle (s : State) : State :=
  match s.phase with
  | .running => tick s
  | .inReset => s

end Sys2Proof.Machine
end

