-- ==== Sys2Proof/Machine/PanelCommands.lean ====
section
/-! DEFINITION. The meanings of the commands of the panel driver and the return line (chapters 7 to 9). -/

namespace Sys2Proof.Machine

/-- REFRESH (R150). -/
def execRefresh (s : State) : Host.Outcome State Fault Refusal :=
  .next (event refreshFrame s)

/-- SHIFT_COMPLETE (R151, R152). -/
def execShiftComplete (s : State) : Host.Outcome State Fault Refusal :=
  .next (event latchShift s)

/-- RETURN_OCTET (R171, R172, R184). -/
def execReturnOctet (s : State) : Host.Outcome State Fault Refusal :=
  .next (event returnSlot s)

end Sys2Proof.Machine
end

