-- ==== Sys2Proof/Machine/SettingsCommands.lean ====
section
/-! DEFINITION. The meanings of the commands of settings, the staff key and the resets (chapter 10). -/

namespace Sys2Proof.Machine

/-- SET_BOARD (R187, R188). -/
def execSetBoard (h : Header) (f : BoardFields) (s : State) : Host.Outcome State Fault Refusal :=
  .next (feedEvent (acceptSetBoard h f) s)

/-- RESTART (R189). -/
def execRestart (s : State) : Host.Outcome State Fault Refusal :=
  .next (feedEvent acceptRestart s)

/-- READ_BOARD (R185). -/
def execReadBoard (h : Header) (s : State) : Host.Outcome State Fault Refusal :=
  .next (feedEvent (acceptReadBoard h) s)

/-- STAFF_KEY_INPUT_CHANGE (R190). -/
def execStaffKeyInputChange (closed : Bool) (s : State) : Host.Outcome State Fault Refusal :=
  .next (keyInputChange closed s)

/-- STAFF_KEY_DEBOUNCED (R190). -/
def execStaffKeyDebounced (s : State) : Host.Outcome State Fault Refusal :=
  .next (event keyDebounced s)

/-- POWER_ON: every block takes its power-on state and the blank output is asserted (R94, R152). -/
def execPowerOn (s : State) : Host.Outcome State Fault Refusal :=
  .next (hardReset s)

/-- RESET_LINE_ASSERT: the operation in progress is cut, every block takes its reset state and the panels are blanked (R92,
R152, R190). -/
def execResetLineAssert (s : State) : Host.Outcome State Fault Refusal :=
  .next (hardReset s)

/-- RESET_RELEASE (R94, R158, R190). -/
def execResetRelease (geo1 geo0 : Bool) (s : State) : Host.Outcome State Fault Refusal :=
  .next (releaseReset geo1 geo0 s)

end Sys2Proof.Machine
end

