-- ==== Sys2Proof/Machine/TableCommands.lean ====
section
/-! DEFINITION. The meanings of the commands of the Service Table (chapters 1 and 3). -/

namespace Sys2Proof.Machine

/-- POST_SERVICE (R9 to R13). -/
def execPostService (h : Header) (f : PostFields) (s : State) : Host.Outcome State Fault Refusal :=
  .next (feedEvent (acceptPost h f) s)

/-- AMEND_SERVICE (R15 to R18). -/
def execAmendService (h : Header) (f : AmendFields) (s : State) : Host.Outcome State Fault Refusal :=
  .next (feedEvent (acceptAmend h f) s)

/-- RETIRE_SERVICE (R19). -/
def execRetireService (h : Header) (key : Nat) (s : State) : Host.Outcome State Fault Refusal :=
  .next (feedEvent (acceptRetire h key) s)

/-- CLEAR_BOARD (R20). -/
def execClearBoard (h : Header) (s : State) : Host.Outcome State Fault Refusal :=
  .next (feedEvent (acceptClear h) s)

/-- READ_SERVICE (R27). -/
def execReadService (h : Header) (key : Nat) (s : State) : Host.Outcome State Fault Refusal :=
  .next (feedEvent (acceptReadService h key) s)

/-- SWEEP_WINDOW_EXPIRY (R59, R61). -/
def execSweepWindowExpiry (s : State) : Host.Outcome State Fault Refusal :=
  .next (event windowExpiry s)

end Sys2Proof.Machine
end

