-- ==== Sys2Proof/Machine/TimeCommands.lean ====
section
/-! DEFINITION. The meanings of the commands of the Timekeeper's own events (chapter 2). -/

namespace Sys2Proof.Machine

/-- MINUTE_EVENT: running board time advances its minute (R39). -/
def execMinuteEvent (s : State) : Host.Outcome State Fault Refusal :=
  .next (event advanceMinute s)

/-- FEED_LAPSED: the freshness timer reaches the holdover limit (R49). -/
def execFeedLapsed (s : State) : Host.Outcome State Fault Refusal :=
  .next (event lapseFeed s)

end Sys2Proof.Machine
end

