-- ==== Sys2Proof/Machine/Dispatch.lean ====
section
/-! DEFINITION. One arm a command: `exec` hands each to its meaning. -/

namespace Sys2Proof.Machine

def exec (i : Instr) (s : State) : Host.Outcome State Fault Refusal :=
  match i with
  | .feedOctet o => Sys2Proof.Machine.execFeedOctet o s
  | .missingOctet => Sys2Proof.Machine.execMissingOctet s
  | .overheadRecord o1 o2 o3 o4 o5 => Sys2Proof.Machine.execOverheadRecord o1 o2 o3 o4 o5 s
  | .minuteEvent => Sys2Proof.Machine.execMinuteEvent s
  | .feedLapsed => Sys2Proof.Machine.execFeedLapsed s
  | .postService h f => Sys2Proof.Machine.execPostService h f s
  | .amendService h f => Sys2Proof.Machine.execAmendService h f s
  | .retireService h key => Sys2Proof.Machine.execRetireService h key s
  | .clearBoard h => Sys2Proof.Machine.execClearBoard h s
  | .readService h key => Sys2Proof.Machine.execReadService h key s
  | .sweepWindowExpiry => Sys2Proof.Machine.execSweepWindowExpiry s
  | .writePlace h f => Sys2Proof.Machine.execWritePlace h f s
  | .writeComplete verified => Sys2Proof.Machine.execWriteComplete verified s
  | .eraseSector h sector => Sys2Proof.Machine.execEraseSector h sector s
  | .gatherWindowExpiry => Sys2Proof.Machine.execGatherWindowExpiry s
  | .sectorEraseComplete => Sys2Proof.Machine.execSectorEraseComplete s
  | .suspendErase h => Sys2Proof.Machine.execSuspendErase h s
  | .suspensionComplete => Sys2Proof.Machine.execSuspensionComplete s
  | .resumeErase h => Sys2Proof.Machine.execResumeErase h s
  | .lockSectors h sectors => Sys2Proof.Machine.execLockSectors h sectors s
  | .freeSectors h sectors => Sys2Proof.Machine.execFreeSectors h sectors s
  | .lockChangeComplete => Sys2Proof.Machine.execLockChangeComplete s
  | .readPlace h place => Sys2Proof.Machine.execReadPlace h place s
  | .scanEnd => Sys2Proof.Machine.execScanEnd s
  | .holdBoard h => Sys2Proof.Machine.execHoldBoard h s
  | .releaseBoard h => Sys2Proof.Machine.execReleaseBoard h s
  | .holdLapse => Sys2Proof.Machine.execHoldLapse s
  | .setBanner h f => Sys2Proof.Machine.execSetBanner h f s
  | .clearBanner h => Sys2Proof.Machine.execClearBanner h s
  | .bannerExpiry => Sys2Proof.Machine.execBannerExpiry s
  | .setBoard h f => Sys2Proof.Machine.execSetBoard h f s
  | .restart => Sys2Proof.Machine.execRestart s
  | .readBoard h => Sys2Proof.Machine.execReadBoard h s
  | .tableJobComplete => Sys2Proof.Machine.execTableJobComplete s
  | .clockJobComplete => Sys2Proof.Machine.execClockJobComplete s
  | .callingStepComplete => Sys2Proof.Machine.execCallingStepComplete s
  | .bannerComposeComplete => Sys2Proof.Machine.execBannerComposeComplete s
  | .bannerStepComplete => Sys2Proof.Machine.execBannerStepComplete s
  | .scrollPauseExpiry which => Sys2Proof.Machine.execScrollPauseExpiry which s
  | .scrollStepDue which => Sys2Proof.Machine.execScrollStepDue which s
  | .refresh => Sys2Proof.Machine.execRefresh s
  | .shiftComplete => Sys2Proof.Machine.execShiftComplete s
  | .returnOctet => Sys2Proof.Machine.execReturnOctet s
  | .staffKeyInputChange closed => Sys2Proof.Machine.execStaffKeyInputChange closed s
  | .staffKeyDebounced => Sys2Proof.Machine.execStaffKeyDebounced s
  | .powerOn => Sys2Proof.Machine.execPowerOn s
  | .resetLineAssert => Sys2Proof.Machine.execResetLineAssert s
  | .resetRelease geo1 geo0 => Sys2Proof.Machine.execResetRelease geo1 geo0 s

end Sys2Proof.Machine
end

