-- ==== Sys2Proof/Machine/Encode.lean ====
section
/-! DEFINITION. The other side of the structure check: the parameters of each message written octet by octet from R179 and
R186, and the command each message stands for. No event uses these; claims do. -/

namespace Sys2Proof.Machine

/-- A bit of a mask. -/
def maskBit (present : Bool) (n : Nat) : Nat :=
  if present then 2 ^ n else 0

/-- An item that stands only when present. -/
def ifPresent {α : Type} (f : α → List Byte) : Option α → List Byte
  | none => []
  | some a => f a

/-- A list: a count octet, then its items. -/
def listOctets {α : Type} (f : α → List Byte) (l : List α) : List Byte :=
  octet1 l.length :: l.flatMap f

/-- A calling stop: place number, then the flags octet (R179). -/
def stopOctets (st : Stop) : List Byte :=
  octets2 st.place ++ [octet1 (maskBit st.request 0 + maskBit st.skipped 1)]

/-- POST SERVICE (R179). -/
def postOctets (f : PostFields) : List Byte :=
  octet1 (maskBit f.delay.isSome 0 + maskBit f.via.isSome 1 + maskBit f.train.isSome 2) :: octets2 f.key ++ [f.revision]
    ++ signed2 f.scheduled ++ [octet1 f.state] ++ textOctets f.platform ++ octets2 f.destination
    ++ ifPresent signed2 f.delay ++ ifPresent octets2 f.via ++ listOctets stopOctets f.stops
    ++ ifPresent (fun n => [octet1 n]) f.train

/-- AMEND SERVICE (R179). -/
def amendOctets (f : AmendFields) : List Byte :=
  octet1 (maskBit f.delay.isSome 0 + maskBit f.state.isSome 1 + maskBit f.platform.isSome 2 + maskBit f.train.isSome 3
      + maskBit f.skip.isSome 4 + maskBit f.restore.isSome 5)
    :: octets2 f.key ++ [f.revision] ++ ifPresent signed2 f.delay ++ ifPresent (fun n => [octet1 n]) f.state
    ++ ifPresent textOctets f.platform ++ ifPresent (fun n => [octet1 n]) f.train
    ++ ifPresent (listOctets (fun n => [octet1 n])) f.skip ++ ifPresent (listOctets (fun n => [octet1 n])) f.restore

/-- WRITE PLACE (R179). -/
def writeOctets (f : WriteFields) : List Byte :=
  octet1 (maskBit f.entry.short.isSome 0) :: octets2 f.place ++ textOctets f.entry.full
    ++ ifPresent textOctets f.entry.short ++ f.entry.code

/-- The three-octet mask of a SET BOARD, as a number (R179, R186). -/
def boardMask (f : BoardFields) : Nat :=
  maskBit f.filter.isSome 0 + maskBit f.origin.isSome 1 + maskBit f.sweepLength.isSome 2 + maskBit f.holdover.isSome 3
    + maskBit f.holdLimit.isSome 4 + maskBit f.countdown.isSome 5 + maskBit f.lateThreshold.isSome 6
    + maskBit f.horizon.isSome 7 + maskBit f.grace.isSome 8 + maskBit f.dwell.isSome 9 + maskBit f.scrollRate.isSome 10
    + maskBit f.scrollPause.isSome 11 + maskBit f.scrollEnable.isSome 12 + maskBit f.clockEnable.isSome 13
    + maskBit f.bannerEnable.isSome 14 + maskBit f.autoSuspend.isSome 15 + maskBit f.alignWindow.isSome 16
    + maskBit f.mimicCheck.isSome 17 + maskBit f.debounce.isSome 18 + maskBit f.smallFont.isSome 19

/-- SET BOARD (R179, R186). -/
def boardOctets (f : BoardFields) : List Byte :=
  let n1 := ifPresent (fun n => [octet1 n])
  let sw := ifPresent (fun b => [yesNo b])
  octet1 (boardMask f / 65536) :: octet1 (boardMask f / 256) :: octet1 (boardMask f)
    :: ifPresent (listOctets textOctets) f.filter ++ ifPresent octets2 f.origin ++ n1 f.sweepLength ++ n1 f.holdover
    ++ n1 f.holdLimit ++ n1 f.countdown ++ n1 f.lateThreshold ++ ifPresent octets2 f.horizon ++ n1 f.grace ++ n1 f.dwell
    ++ n1 f.scrollRate ++ n1 f.scrollPause ++ sw f.scrollEnable ++ sw f.clockEnable ++ sw f.bannerEnable
    ++ sw f.autoSuspend ++ n1 f.alignWindow ++ sw f.mimicCheck ++ sw f.debounce ++ sw f.smallFont

/-- The kind code of a message (R178). -/
def Message.kind : Message → Byte
  | .post _ => kindPost
  | .amend _ => kindAmend
  | .retire _ => kindRetire
  | .clearBoard => kindClear
  | .holdBoard => kindHold
  | .releaseBoard => kindRelease
  | .setBanner _ => kindSetBanner
  | .clearBanner => kindClearBanner
  | .writePlace _ => kindWrite
  | .eraseSector _ => kindErase
  | .suspendErase => kindSuspend
  | .resumeErase => kindResume
  | .lockSectors _ => kindLock
  | .freeSectors _ => kindFree
  | .readService _ => kindReadService
  | .readPlace _ => kindReadPlace
  | .readBoard => kindReadBoard
  | .setBoard _ => kindSetBoard
  | .restart => kindRestart

/-- The parameters of a message (R179). -/
def Message.octets : Message → List Byte
  | .post f => postOctets f
  | .amend f => amendOctets f
  | .retire key => octets2 key
  | .clearBoard => []
  | .holdBoard => []
  | .releaseBoard => []
  | .setBanner f => textOctets f.text ++ octets2 f.duration
  | .clearBanner => []
  | .writePlace f => writeOctets f
  | .eraseSector sector => [octet1 sector]
  | .suspendErase => []
  | .resumeErase => []
  | .lockSectors sectors => [sectors]
  | .freeSectors sectors => [sectors]
  | .readService key => octets2 key
  | .readPlace place => octets2 place
  | .readBoard => []
  | .setBoard f => boardOctets f
  | .restart => []

/-- The command a message stands for: its acceptance or refusal by its owner (R177). -/
def Message.command (h : Header) : Message → Instr
  | .post f => .postService h f
  | .amend f => .amendService h f
  | .retire key => .retireService h key
  | .clearBoard => .clearBoard h
  | .holdBoard => .holdBoard h
  | .releaseBoard => .releaseBoard h
  | .setBanner f => .setBanner h f
  | .clearBanner => .clearBanner h
  | .writePlace f => .writePlace h f
  | .eraseSector sector => .eraseSector h sector
  | .suspendErase => .suspendErase h
  | .resumeErase => .resumeErase h
  | .lockSectors sectors => .lockSectors h sectors
  | .freeSectors sectors => .freeSectors h sectors
  | .readService key => .readService h key
  | .readPlace place => .readPlace h place
  | .readBoard => .readBoard h
  | .setBoard f => .setBoard h f
  | .restart => .restart

end Sys2Proof.Machine
end

