-- ==== Sys2Proof/Safety.lean ====
section
/-! DEFINITION. The vocabulary of claims: which parts of the State an event leaves alone, what an event shows of results and
dirty lines, and the invariants the manual states of the whole part. -/

namespace Sys2Proof.Machine

/-! ### Parts of the State -/

/-- The parts a claim tells apart: each block, with the Service Table, the Place Directory and the Paint Engine taken item by
item. -/
inductive Part where
  | phase | elapsed | geometry | settings | key | feed | unpacker | results | time | board
  | slots | order | window
  | storage | eraseMarks | lockFlags | slotStates | counts | locks | dirOp
  | dirty | requests | arbiter | hold | banner | callingScroll | bannerScroll | suspendRequest | bankReport | layouts
  | frame | freeIndex | pending
deriving DecidableEq, Repr

/-- Whether a part reads the same in two states. -/
def Part.same (s t : State) : Part → Prop
  | .phase => t.phase = s.phase
  | .elapsed => t.elapsed = s.elapsed
  | .geometry => t.geometry = s.geometry
  | .settings => t.settings = s.settings
  | .key => t.key = s.key
  | .feed => t.feed = s.feed
  | .unpacker => t.unpacker = s.unpacker
  | .results => t.results = s.results
  | .time => t.time = s.time
  | .board => t.board = s.board
  | .slots => t.table.slots = s.table.slots
  | .order => t.table.order = s.table.order
  | .window => t.table.window = s.table.window
  | .storage => t.dir.storage = s.dir.storage
  | .eraseMarks => t.dir.eraseMarks = s.dir.eraseMarks
  | .lockFlags => t.dir.lockFlags = s.dir.lockFlags
  | .slotStates => t.dir.slotStates = s.dir.slotStates
  | .counts => t.dir.counts = s.dir.counts
  | .locks => t.dir.locks = s.dir.locks
  | .dirOp => t.dir.op = s.dir.op
  | .dirty => t.paint.dirty = s.paint.dirty
  | .requests => t.paint.callingStep = s.paint.callingStep ∧ t.paint.clockRequest = s.paint.clockRequest ∧
      t.paint.bannerCompose = s.paint.bannerCompose ∧ t.paint.bannerStep = s.paint.bannerStep
  | .arbiter => t.paint.job = s.paint.job ∧ t.paint.lastGranted = s.paint.lastGranted
  | .hold => t.paint.hold = s.paint.hold
  | .banner => t.paint.banner = s.paint.banner
  | .callingScroll => t.paint.callingScroll = s.paint.callingScroll
  | .bannerScroll => t.paint.bannerScroll = s.paint.bannerScroll
  | .suspendRequest => t.paint.suspendRequest = s.paint.suspendRequest
  | .bankReport => t.paint.bankA = s.paint.bankA ∧ t.paint.bankB = s.paint.bankB
  | .layouts => t.paint.layouts = s.paint.layouts
  | .frame => t.frame = s.frame
  | .freeIndex => t.freeIndex = s.freeIndex
  | .pending => t.pending = s.pending

/-- Every part but those listed is as before. -/
def SameBut (touched : List Part) (s t : State) : Prop :=
  ∀ p : Part, p ∉ touched → p.same s t

/-- What the arbiter's decision at the end of an event may change: the requests and the dirty line set by a grant, the job and
the pointer, and the paint suspend request with the directory's reaction to it (R87, R128, R144). -/
def arbiterParts : List Part :=
  [.dirty, .requests, .arbiter, .suspendRequest, .bankReport, .dirOp, .eraseMarks]

/-- The parts of the arbiter that no directory reaction enters: for events in a directory state the request does not act on. -/
def grantParts : List Part :=
  [.dirty, .requests, .arbiter, .suspendRequest, .bankReport]

/-- The part runs: it is not held by power-on or the reset line (R190). -/
def Running (s : State) : Prop := s.phase = .running

/-- The part runs and the Feed Receiver is not held: messages and overhead records reach their owners (R94, R163). -/
def Listening (s : State) : Prop := s.phase = .running ∧ s.feed.held = false

/-! ### What an event shows -/

/-- A result entered when wanted, at the tail, or lost when 16 stand (R177, R181, R182). -/
def Answered (kind : Byte) (h : Header) (outcome detail : Nat) (s t : State) : Prop :=
  t.results =
    if h.reply then
      (if s.results.queue.length < 16 then
        { s.results with queue := s.results.queue ++ [.result kind h.tag outcome detail] }
      else { s.results with lost := true })
    else s.results

/-- The entries of several answers, in the order of the list: those whose reply flag is set (R80, R82, R84). -/
def answersOf (kind : Byte) (hs : List Header) (outcome detail : Nat) : List Entry :=
  (hs.filter (fun h => h.reply)).map (fun h => .result kind h.tag outcome detail)

/-- Entries joined at the tail of the queue as far as there is room; the others are lost and the flag is set (R182). -/
def Entered (entries : List Entry) (s t : State) : Prop :=
  let room := 16 - s.results.queue.length
  t.results = { s.results with
    queue := s.results.queue ++ entries.take room
    lost := s.results.lost || decide (room < entries.length) }

/-- The dirty line set after an event is that before it with the lines marked, less at most the one line for which an idle
arbiter granted a TABLE job in the event (R126, R131). -/
def Marked (lines : List Nat) (s t : State) : Prop :=
  (∀ n, n ∈ t.paint.dirty ↔ n ∈ lines ∨ n ∈ s.paint.dirty) ∨
    (s.paint.job = none ∧ ∃ line out, t.paint.job = some (.table line out) ∧
      ∀ n, n ∈ t.paint.dirty ↔ (n ∈ lines ∨ n ∈ s.paint.dirty) ∧ n ≠ line)

/-- The clock request stands after an event, or an idle arbiter has granted it in the event (R132). -/
def ClockRaised (s t : State) : Prop :=
  t.paint.clockRequest = true ∨ (s.paint.job = none ∧ ∃ out, t.paint.job = some (.clock out))

/-! ### Invariants -/

/-- The records of the table. -/
def State.records (s : State) : List Record := recordsOf s.table.slots

/-- A strictly rising list of numbers below a bound: how a set is held. -/
def SetBelow (n : Nat) (l : List Nat) : Prop :=
  l.Pairwise (· < ·) ∧ ∀ a ∈ l, a < n

/-- Every setting within its range, the filter a set of codes (R186). -/
def SettingsOK (t : Settings) : Prop :=
  (t.filter.length ≤ 4 ∧ (∀ c ∈ t.filter, platformOK c = true) ∧ t.filter.Pairwise (fun a b => textBefore a b = true)) ∧
    t.origin ≤ 359 ∧ t.sweepLength ≤ 10 ∧ (1 ≤ t.holdover ∧ t.holdover ≤ 60) ∧ (1 ≤ t.holdLimit ∧ t.holdLimit ≤ 30) ∧
    t.countdown ≤ 30 ∧ (1 ≤ t.lateThreshold ∧ t.lateThreshold ≤ 10) ∧ (30 ≤ t.horizon ∧ t.horizon ≤ 999) ∧
    t.grace ≤ 10 ∧ (1 ≤ t.dwell ∧ t.dwell ≤ 60) ∧ (10 ≤ t.scrollRate ∧ t.scrollRate ≤ 100) ∧ t.scrollPause ≤ 10 ∧
    (4 ≤ t.alignWindow ∧ t.alignWindow ≤ 6)

/-- A delay is held exactly as the running state requires (R2). -/
def DelayFits (r : Record) : Prop :=
  (r.state = .scheduled → r.delay = none) ∧ (r.state = .unknownDelay → r.delay = none) ∧
    (r.state = .estimated → r.delay ≠ none)

/-- A record within the ranges of R1 and R2. -/
def RecordOK (r : Record) : Prop :=
  (1 ≤ r.key ∧ r.key ≤ 65535) ∧ (-1440 ≤ r.scheduled ∧ r.scheduled ≤ 1799) ∧
    (∀ d ∈ r.delay, -30 ≤ d ∧ d ≤ 999) ∧ DelayFits r ∧ platformOK r.platform = true ∧
    (∀ p ∈ referencesOf r, p ≤ 1023) ∧ r.stops.length ≤ 24 ∧ (∀ n ∈ r.train, 1 ≤ n ∧ n ≤ 16)

/-- How often a place is named by the records of the table, as destination, via or calling stop (R14). -/
def State.references (s : State) (place : Nat) : Nat :=
  (s.records.flatMap referencesOf).count place

/-- The Service Table: 96 slots, keys unique, records in range, the running order as R22 sorts it, and the reference counts
equal to the references held (R1, R2, R5, R14, R22). -/
def TableInv (s : State) : Prop :=
  s.table.slots.length = 96 ∧ (s.records.map Record.key).Nodup ∧ (∀ r ∈ s.records, RecordOK r) ∧
    s.table.order = runningOrder s.settings.filter s.table.slots ∧
    cellsFrom 0 1024 0 s.dir.counts = true ∧ ∀ p < 1024, cellGet 0 s.dir.counts p = s.references p

/-- The sweep window: CLOSED with no LEAVING record, or OPEN with its expiry ahead, not past the cap, and the cap within 50 s;
and while the part is held in reset the table empty (R6, R55, R56, R62). -/
def WindowInv (s : State) : Prop :=
  SettingsOK s.settings ∧ (s.phase = .inReset → s.table = Table.reset) ∧
    match s.table.window with
    | .closed => ∀ r ∈ s.records, r.isLive = true
    | .opened expiry cap => s.elapsed < expiry ∧ expiry ≤ cap ∧ cap ≤ s.elapsed + 50000

/-- The Timekeeper and the board state: ranges, board time standing at 00:00:00.000 while invalid, "now" as R37 computes it
while valid, the freshness timer below the limit while FRESH, and the board state as its inputs give it (R31, R32, R35, R37,
R49, R154). -/
def TimeInv (s : State) : Prop :=
  SettingsOK s.settings ∧ (s.time.minute < 1440 ∧ s.time.second < 60 ∧ s.time.milli < 1000) ∧
    s.time.now < 1440 ∧ s.time.inconsistent ≤ 2 ∧
    (s.time.valid = false → s.time.minute = 0 ∧ s.time.second = 0 ∧ s.time.milli = 0 ∧ s.time.rollHold = false) ∧
    (s.time.valid = true →
      s.time.now = if s.time.rollHold then 0 else serviceMinute s.settings.origin s.time.minute) ∧
    (match s.time.freshness with
      | .fresh => s.time.freshTimer < holdoverMs s
      | .lapsed => s.time.freshTimer ≤ 3600000) ∧
    (s.phase = .running → s.board = deriveBoard s.feed.station s.time.freshness s.time.valid)

/-- The result queue: at most 16 entries and never two reads of one object (R182, R183). -/
def QueueInv (s : State) : Prop :=
  s.results.queue.length ≤ 16 ∧ ∀ o, (s.results.queue.filter (Entry.reads o)).length ≤ 1

/-- The arbiter is at rest: the bank report is the directory's, an idle arbiter has no grantable slot, and the paint suspend
request agrees with the conditions that raise and withdraw it (R128, R144, R145). -/
def Settled (s : State) : Prop :=
  s.paint.bankA = bankBusy s.dir.op .a ∧ s.paint.bankB = bankBusy s.dir.op .b ∧
    (s.paint.job = none → ∀ slot, grantable s slot = false) ∧
    (s.paint.suspendRequest = true → withdrawCondition s = false) ∧
    (s.paint.suspendRequest = false → raiseCondition s = false)

/-- A line image is W columns (R98, R148). -/
def ImageOK (s : State) (image : List Column) : Prop :=
  image.length = boardWidth s.geometry

/-- A strip within a cap. -/
def StripOK (most : Nat) (strip : Option (List Column)) : Prop :=
  ∀ columns ∈ strip, 1 ≤ columns.length ∧ columns.length ≤ most

/-- A scroll's strip within its cap and its offset within −W..width − 1 (R133, R134). -/
def ScrollOK (s : State) (most : Nat) : Scroll → Prop
  | .still => True
  | .paused strip _ => StripOK most (some strip)
  | .moving strip offset _ => StripOK most (some strip) ∧ -(boardWidth s.geometry : Int) ≤ offset ∧ offset < strip.length

/-- A step result that fits the scroll it will move, which since its grant has stayed MOVING or been stopped (R136, R137). -/
def StepOK (s : State) (sc : Scroll) (r : StepResult) : Prop :=
  ImageOK s r.image ∧
    match sc with
    | .moving strip _ _ => -(boardWidth s.geometry : Int) ≤ r.offset ∧ r.offset < strip.length
    | .still => True
    | .paused _ _ => False

/-- What a running job will place fits the board (R98, R130, R133). -/
def JobOK (s : State) : Job → Prop
  | .table line out => line < s.lines - 1 ∧ ∀ c ∈ out, ImageOK s c.image ∧ StripOK 4096 c.strip
  | .callingStep out => ∀ r ∈ out, StepOK s s.paint.callingScroll r
  | .clock out => ∀ c ∈ out, ImageOK s c.image
  | .bannerCompose out => ∀ p ∈ out, p.1 < s.lines ∧ ImageOK s p.2.image ∧ StripOK 1439 p.2.strip
  | .bannerStep out => ∀ p ∈ out, p.1 < s.lines ∧ StepOK s s.paint.bannerScroll p.2

/-- Whether a scroll is MOVING. -/
def Scroll.isMoving : Scroll → Bool
  | .moving _ _ _ => true
  | .still => false
  | .paused _ _ => false

/-- The Paint Engine and the Frame Store: the dirty line set within 0..L−2, each line once; one image and layout record a line,
each image W columns; a running job's slot under the pointer; scrolls and strips in range, a pending calling step only of a
MOVING scroll and a pending banner step of one not STILL; and the banner composing and scrolling only on a line it owns (R122, R125, R126, R128, R133 to R137, R140, R148). -/
def PaintInv (s : State) : Prop :=
  s.geometry ≤ 3 ∧ SetBelow (s.lines - 1) s.paint.dirty ∧ s.paint.layouts.length = s.lines ∧
    (s.frame.shown.length = s.lines ∧ ∀ i ∈ s.frame.shown, ImageOK s i) ∧
    (s.frame.pending.length = s.lines ∧ ∀ p ∈ s.frame.pending, ∀ i ∈ p, ImageOK s i) ∧
    (∀ j ∈ s.paint.job, s.paint.lastGranted = j.slot ∧ JobOK s j) ∧
    (∀ b ∈ s.paint.banner, nameOK 160 b.text = true ∧ b.width = textWidth .large b.text) ∧
    ScrollOK s 4096 s.paint.callingScroll ∧ ScrollOK s 1439 s.paint.bannerScroll ∧
    (s.paint.callingStep = true → s.paint.callingScroll.isMoving = true) ∧
    (s.paint.bannerStep = true → s.paint.bannerScroll ≠ .still) ∧
    (s.paint.callingScroll ≠ .still → ownerOf s 1 = .table) ∧
    (s.paint.bannerScroll ≠ .still → bannerLine s ≠ none) ∧
    (s.paint.bannerCompose = true → bannerLine s ≠ none)

/-- An erase in hand: a rising set of sectors and at most 16 joined messages, the sectors already erased no longer in it
(R75, R78, R81). -/
def EraseOK (e : EraseJob) : Prop :=
  SetBelow 8 e.set ∧ e.set ≠ [] ∧ SetBelow 8 e.erased ∧ (∀ a ∈ e.erased, a ∉ e.set) ∧ e.joined.length ≤ 16

/-- The current sector of an erase is the lowest of its set, with at most 300 ms to run and, once begun, its mark set (R81). -/
def CurrentOK (d : Directory) (e : EraseJob) (c : Current) : Prop :=
  EraseOK e ∧ e.set.head? = some c.sector ∧ c.remaining ≤ 300 ∧ (c.begun = true → c.sector ∈ d.eraseMarks)

/-- A write in hand: its slot in storage holds a well-formed entry with the write-begun mark alone, in a sector without an
erase-begun mark (R69, R76). -/
def WriteOK (d : Directory) (w : WriteRun) : Prop :=
  let slot := cellGet StoredSlot.erased d.storage w.place
  w.place < 1024 ∧ sectorOf w.place ∉ d.eraseMarks ∧ slot.begun = true ∧ slot.complete = false ∧
    slot.entry.any entryOK = true

/-- The operation state in order (R75). -/
def OpOK (d : Directory) : DirOp → Prop
  | .scanning => d.counts = []
  | .ready => True
  | .writing w => WriteOK d w
  | .locking l => SetBelow 8 l.target ∧ l.remaining ≤ 5
  | .gathering e window => EraseOK e ∧ e.erased = [] ∧ window ≤ 40
  | .erasing e c => CurrentOK d e c ∧ c.begun = true
  | .suspending e c _ _ => CurrentOK d e c
  | .suspended e c _ => CurrentOK d e c
  | .suspendedWriting e c _ w => CurrentOK d e c ∧ WriteOK d w ∧ sectorOf w.place ∉ e.set

/-- The state a slot reads in RAM when nothing is changing it: by its sector's erase-begun mark and its own marks in storage
(R70, R93). -/
def markedState (d : Directory) (place : Nat) : SlotState :=
  if sectorOf place ∈ d.eraseMarks then .defective
  else scannedState (cellGet StoredSlot.erased d.storage place)

/-- The Place Directory: storage and tables in canonical form; the operation state in order; outside a scan each slot, but
those of a sector whose erase has begun, reads as its marks say, or WRITING while it is written; no sector of the erase set is
locked or holds a referenced place; and every referenced place is VALID (R10, R69, R70, R72, R75, R78, R93). -/
def DirectoryInv (s : State) : Prop :=
  (cellsFrom StoredSlot.erased 1024 0 s.dir.storage = true ∧ cellsFrom .blank 1024 0 s.dir.slotStates = true) ∧
    (SetBelow 8 s.dir.eraseMarks ∧ SetBelow 8 s.dir.lockFlags ∧ SetBelow 8 s.dir.locks) ∧ OpOK s.dir s.dir.op ∧
    (s.dir.op ≠ .scanning → ∀ p < 1024, begunSector s.dir.op ≠ some (sectorOf p) →
      slotState s.dir p = if writingSlot s.dir.op = some p then .writing else markedState s.dir p) ∧
    (∀ a ∈ s.dir.op.eraseSet, a ∉ s.dir.locks) ∧
    ∀ p < 1024, 0 < cellGet 0 s.dir.counts p → sectorOf p ∉ s.dir.op.eraseSet ∧ slotState s.dir p = .valid

/-! ### Terms of the Service Table -/

/-- A platform code: 1..3 characters, each 0–9 or A–Z (R1). -/
def PlatformCode (t : Text) : Prop :=
  (1 ≤ t.length ∧ t.length ≤ 3) ∧
    ∀ b ∈ t, (0x30 ≤ b.toNat ∧ b.toNat ≤ 0x39) ∨ (0x41 ≤ b.toNat ∧ b.toNat ≤ 0x5A)

/-- The places a POST SERVICE names, in the order it asks about them: destination, via, stops (R10). -/
def postPlaces (f : PostFields) : List Nat :=
  f.destination :: (f.via.toList ++ f.stops.map Stop.place)

/-- The cases in which POST SERVICE is refused on its own fields (R9). -/
def PostOutOfRange (f : PostFields) : Prop :=
  f.key = 0 ∨ f.scheduled < 0 ∨ 1799 < f.scheduled ∨ 3 < f.state ∨ ¬ PlatformCode f.platform ∨
    (∃ p ∈ postPlaces f, 1023 < p) ∨ 24 < f.stops.length ∨ (∃ n ∈ f.train, n < 1 ∨ 16 < n) ∨
    (f.state = 1 ∧ f.delay = none)

/-- The cases in which AMEND SERVICE is refused on its own fields (R15). -/
def AmendOutOfRange (f : AmendFields) : Prop :=
  f.key = 0 ∨ (∃ n ∈ f.state, 3 < n) ∨ (∃ t ∈ f.platform, ¬ PlatformCode t) ∨ (∃ n ∈ f.train, 16 < n) ∨
    24 < (f.skip.getD []).length ∨ 24 < (f.restore.getD []).length ∨ ∃ i ∈ f.skip.getD [], i ∈ f.restore.getD []

/-- A delay outside −30..+999, which is clamped (R8). -/
def DelayOutside (delay : Option Int) : Prop :=
  ∃ d ∈ delay, d < -30 ∨ 999 < d

/-- The delay of a message taken to the nearest end of −30..+999 (R8). -/
def clampedDelay (delay : Option Int) : Option Int :=
  delay.map (fun d => if d < -30 then -30 else if 999 < d then 999 else d)

/-- The record a POST SERVICE gives: every field from the message, LIVE; no delay with SCHEDULED or UNKNOWN_DELAY (R8, R9,
R11, R12). -/
def PostedRecord (f : PostFields) (r : Record) : Prop :=
  r.key = f.key ∧ r.revision = f.revision ∧ r.scheduled = f.scheduled ∧ r.platform = f.platform ∧
    r.destination = f.destination ∧ r.via = f.via ∧ r.stops = f.stops ∧ r.train = f.train ∧ r.life = .live ∧
    (f.state = 0 → r.state = .scheduled ∧ r.delay = none) ∧
    (f.state = 1 → r.state = .estimated ∧ r.delay = clampedDelay f.delay) ∧
    (f.state = 2 → r.state = .unknownDelay ∧ r.delay = none) ∧
    (f.state = 3 → r.state = .cancelled ∧ r.delay = clampedDelay f.delay)

/-- How far a message's revision is ahead of a record's, modulo 256 (R7). -/
def revisionDistance (new old : Byte) : Nat :=
  (256 + new.toNat - old.toNat) % 256

/-- A message is newer than a record (R7). -/
def Newer (new old : Byte) : Prop :=
  1 ≤ revisionDistance new old ∧ revisionDistance new old ≤ 127

/-- A place that a POST SERVICE may name (R10, R89). -/
def PlaceUsable (s : State) (place : Nat) : Prop :=
  s.dir.op ≠ .scanning ∧ sectorOf place ∉ s.dir.op.eraseSet ∧ slotState s.dir place = .valid

/-- The first place of a list that fails, with the outcome and detail it gives: DIRECTORY_BUSY (9) for all while scanning,
PLACE_UNAVAILABLE (8) in the erase set, else PLACE_UNKNOWN (7) (R10). -/
def PlaceFailure (s : State) (places : List Nat) (outcome detail : Nat) : Prop :=
  (s.dir.op = .scanning ∧ outcome = 9 ∧ detail = 0) ∨
    (s.dir.op ≠ .scanning ∧ ∃ before p after, places = before ++ p :: after ∧ (∀ q ∈ before, PlaceUsable s q) ∧
      detail = p ∧
      ((sectorOf p ∈ s.dir.op.eraseSet ∧ outcome = 8) ∨
        (sectorOf p ∉ s.dir.op.eraseSet ∧ slotState s.dir p ≠ .valid ∧ outcome = 7)))

/-- The position of a record as a detail gives it: its index in the running order, or 65535 (R8, R22). -/
def PositionIs (s : State) (key detail : Nat) : Prop :=
  (s.table.order[detail]? = some key ∧ ∀ i < detail, s.table.order[i]? ≠ some key) ∨
    (key ∉ s.table.order ∧ detail = 65535)

/-- The lines a change of the records marks: those of R24 for the change of order, and those of R25 for each shown record whose
content has changed. -/
def changeMarks (slots : List (Option Record)) (s : State) : List Nat :=
  orderMarks s.geometry s.table.order (runningOrder s.settings.filter slots)
    ++ contentMarks s.geometry s.table.slots slots (runningOrder s.settings.filter slots)

/-- Two contents of a record differ in something the board shows of it: the list of R25, the leave cause and the revision not
among it. -/
def ShownDiffers (a b : Record) : Prop :=
  ¬ (a.scheduled = b.scheduled ∧ a.state = b.state ∧ a.delay = b.delay ∧ a.platform = b.platform ∧
    a.destination = b.destination ∧ a.via = b.via ∧ a.stops = b.stops ∧ a.train = b.train ∧
    (a.life = .live ↔ b.life = .live))

/-- A change of the records takes effect: the slots hold these records, the order is recomputed, and lines are marked (R23 to
R25). -/
def Retabled (slots : List (Option Record)) (s t : State) : Prop :=
  t.table.slots = slots ∧ t.table.order = runningOrder s.settings.filter slots ∧
    Marked (changeMarks slots s) s t

/-- The parts a change of the records, its references and its answer touch. -/
def tableParts : List Part :=
  [.slots, .order, .counts, .results]

/-- The slots with the record `old` replaced by `new` where it stands. -/
def replacedIn (slots : List (Option Record)) (old new : Record) : List (Option Record) :=
  slots.map (fun o => if o = some old then some new else o)

/-- The sweep window after a record becomes LEAVING under a window length above 0: opened with its cap five lengths on, or
restarted within its cap (R55, R56). -/
def windowAfterLeaving (s : State) : SweepWindow :=
  let t := 1000 * s.settings.sweepLength
  match s.table.window with
  | .closed => .opened (s.elapsed + t) (s.elapsed + 5 * t)
  | .opened _ cap => .opened (min (s.elapsed + t) cap) cap

/-- The slots a sweep leaves: those of LIVE records as they were, all others free (R59). -/
def sweptSlots (slots : List (Option Record)) : List (Option Record) :=
  slots.map (fun o => match o with
    | some r => if r.life = .live then some r else none
    | none => none)

/-- What a sweep does to the counts: −1 for each appearance in each LEAVING record (R14, R59). -/
def CountsSwept (slots : List (Option Record)) (s t : State) : Prop :=
  ∀ p < 1024, cellGet 0 t.dir.counts p
      + (((recordsOf slots).filter (fun r => !decide (r.life = .live))).flatMap referencesOf).count p
    = cellGet 0 s.dir.counts p

/-- A record made LEAVING with a cause (R53). -/
def leaving (cause : LeaveCause) (r : Record) : Record := { r with life := .leaving cause }

/-- The running state and delay an applied AMEND SERVICE leaves, row by row of R17's table: what it gives as a state code and a
clamped delay, and what the record holds. -/
def AmendedRun (state : Option Nat) (delay : Option Int) (r new : Record) : Prop :=
  (state = none → delay = none → new.state = r.state ∧ new.delay = r.delay) ∧
    (∀ d, state = none → delay = some d →
      new.state = (if r.state = .cancelled then .cancelled else .estimated) ∧ new.delay = some d) ∧
    (state = some 0 → new.state = .scheduled ∧ new.delay = none) ∧
    (state = some 2 → new.state = .unknownDelay ∧ new.delay = none) ∧
    (state = some 1 → new.state = .estimated ∧ new.delay = delay.or r.delay) ∧
    (state = some 3 → new.state = .cancelled ∧ new.delay = delay.or r.delay)

/-- The record an applied AMEND SERVICE leaves (R16 to R18). -/
def AmendedRecord (f : AmendFields) (r new : Record) : Prop :=
  new.key = r.key ∧ new.revision = f.revision ∧ new.scheduled = r.scheduled ∧ new.destination = r.destination ∧
    new.via = r.via ∧ new.life = r.life ∧ new.platform = f.platform.getD r.platform ∧
    new.train = (match f.train with
      | none => r.train
      | some n => if n = 0 then none else some n) ∧
    AmendedRun f.state (clampedDelay f.delay) r new ∧ new.stops.length = r.stops.length ∧
    ∀ (i : Nat) (old : Stop), r.stops[i]? = some old → new.stops[i]? = some { old with
      skipped := if i ∈ f.skip.getD [] then true else if i ∈ f.restore.getD [] then false else old.skipped }

/-- The two faults of an AMEND SERVICE that need the record's content (R16). -/
def AmendContentFault (f : AmendFields) (r : Record) : Prop :=
  (∃ i ∈ f.skip.getD [], r.stops.length ≤ i) ∨ (∃ i ∈ f.restore.getD [], r.stops.length ≤ i) ∨
    (f.state = some 1 ∧ f.delay = none ∧ r.delay = none)

/-- When a LIVE record times out against "now" (R44). -/
def TimesOut (set : Settings) (now : Nat) (r : Record) : Prop :=
  r.life = .live ∧
    match r.state with
    | .cancelled => r.scheduled + set.dwell < now
    | .unknownDelay => r.scheduled + set.horizon < now
    | .scheduled => r.scheduled + set.grace < now
    | .estimated => r.scheduled + max 0 (r.delay.getD 0) + set.grace < now

/-- An accepted read: the queued read of the same object takes the tag and keeps its place, or an entry joins at the tail
(R181 to R183). -/
def ReadQueued (tag : Byte) (o : ReadObject) (s t : State) : Prop :=
  t.results =
    if ∃ old, Entry.read old o ∈ s.results.queue then
      { s.results with queue := s.results.queue.map (fun e => match e with
          | .read old o' => if o' = o then .read tag o else .read old o'
          | e => e) }
    else if s.results.queue.length < 16 then
      { s.results with queue := s.results.queue ++ [.read tag o] }
    else { s.results with lost := true }

/-! ### Terms of time and the board state -/

/-- A relation between the records of two tables, slot by slot; a free slot stays free. -/
def SlotsRelate (R : Record → Record → Prop) (before after : List (Option Record)) : Prop :=
  List.Forall₂ (Option.Rel R) before after

/-- What the rollover makes of a record: rebased, or kept and, if LIVE, rolled off (R42). -/
def rolledOver (r : Record) : Record :=
  if 0 ≤ r.scheduled then { r with scheduled := r.scheduled - 1440 }
  else if r.life = .live then leaving .rolledOff r
  else r

/-- What the ageing makes of a record (R44, R45). -/
def AgedRecord (set : Settings) (now : Nat) (r new : Record) : Prop :=
  (TimesOut set now r → new = leaving .timedOut r) ∧ (¬ TimesOut set now r → new = r)

/-- Some record LIVE in one table is LEAVING in its slot in another. -/
def SomeLeft (before after : List (Option Record)) : Prop :=
  ∃ (i : Nat) (r new : Record), before[i]? = some (some r) ∧ r.life = .live ∧ after[i]? = some (some new) ∧
    new.life ≠ .live

/-- "Now" is the service minute of a clock minute under an origin, or 0 while the rollover is held (R37, R41). -/
def NowIs (origin minute : Nat) (rollHold : Bool) (now : Nat) : Prop :=
  (rollHold = true → now = 0) ∧ (rollHold = false → (now : Int) = ((minute : Int) - origin) % 1440)

/-- The lines of R24 and R25 for a change of the records from one table to another, each under its running order. -/
def tableMarks (s : State) (before after : List (Option Record)) : List Nat :=
  orderMarks s.geometry (runningOrder s.settings.filter before) (runningOrder s.settings.filter after)
    ++ contentMarks s.geometry before after (runningOrder s.settings.filter after)

/-- What the stages of a minute event or step event leave of the table: the rollover when there is one, the ageing against the
new "now", the window, the sweep when the window length is 0, the order, the clock request, and exactly these marks: the
departure lines, those of R24 and R25 for each of the three changes, and every line of TABLE when the event repaints the board
for a change of board state (R39, R40, R42, R44, R55 to R57, R155). -/
def StagesTaken (rolled repainted : Bool) (s t : State) : Prop :=
  ∃ mid aged : List (Option Record),
    SlotsRelate (fun r new => new = if rolled then rolledOver r else r) s.table.slots mid ∧
    SlotsRelate (AgedRecord s.settings t.time.now) mid aged ∧
    (¬ SomeLeft s.table.slots aged → t.table.slots = aged ∧ t.table.window = s.table.window ∧
      t.dir.counts = s.dir.counts) ∧
    (SomeLeft s.table.slots aged → 0 < s.settings.sweepLength → t.table.slots = aged ∧
      t.table.window = windowAfterLeaving s ∧ t.dir.counts = s.dir.counts) ∧
    (SomeLeft s.table.slots aged → s.settings.sweepLength = 0 → t.table.slots = sweptSlots aged ∧
      t.table.window = .closed ∧ CountsSwept aged s t) ∧
    t.table.order = runningOrder s.settings.filter t.table.slots ∧ ClockRaised s t ∧
    ∃ lines, Marked lines s t ∧ ∀ n, n ∈ lines ↔ (n + 1 < s.lines ∧ n ≠ 1) ∨ n ∈ tableMarks s s.table.slots mid ∨
      n ∈ tableMarks s mid aged ∨ n ∈ tableMarks s aged t.table.slots ∨ (repainted = true ∧ n + 1 < s.lines)

/-- The board state the three inputs give, row by row of R154's table. -/
def BoardIs (station : StationState) (freshness : Freshness) (valid : Bool) (b : BoardState) : Prop :=
  (station = .dark ∧ b = .dark) ∨ (station = .alert ∧ b = .alert) ∨
    ((station = .normal ∨ station = .closed) ∧
      ((freshness = .lapsed ∧ b = .unavailable) ∨
        (freshness = .fresh ∧ ((valid = false ∧ b = .starting) ∨
          (valid = true ∧ ((station = .closed ∧ b = .closed) ∨ (station = .normal ∧ b = .showing)))))))

/-- The stages of a step event that may repaint the board: from a board state as its inputs give it, it does so exactly when the
board state changes (R155). -/
def StepStagesTaken (rolled : Bool) (s t : State) : Prop :=
  ∃ repainted, StagesTaken rolled repainted s t ∧
    (BoardIs s.feed.station s.time.freshness s.time.valid s.board → (repainted = true ↔ t.board ≠ s.board))

/-- The banner compose stands after an event, or an idle arbiter has granted it in the event (R140). -/
def ComposeRaised (s t : State) : Prop :=
  t.paint.bannerCompose = true ∨ (s.paint.job = none ∧ ∃ out, t.paint.job = some (.bannerCompose out))

/-- What follows when an event changes the board state: every line of TABLE marked, the clock request raised, the banner's scroll
stopped when its line changes or is lost, its compose raised while it owns a line and cleared when it owns none, and the calling
scroll stopped when line 1 passes to the banner (R137, R155). -/
def BoardChanged (s t : State) : Prop :=
  Marked (List.range (s.lines - 1)) s t ∧ ClockRaised s t ∧
    (bannerLine t ≠ bannerLine s → t.paint.bannerScroll = .still ∧ t.paint.bannerStep = false) ∧
    (bannerLine t = bannerLine s → t.paint.bannerScroll = s.paint.bannerScroll) ∧
    (bannerLine t ≠ none → ComposeRaised s t) ∧ (bannerLine t = none → t.paint.bannerCompose = false) ∧
    (bannerLine t = some 1 → bannerLine s ≠ some 1 → t.paint.callingScroll = .still ∧ t.paint.callingStep = false) ∧
    (¬ (bannerLine t = some 1 ∧ bannerLine s ≠ some 1) → t.paint.callingScroll = s.paint.callingScroll)

/-! ### Terms of the part's own time -/

/-- The millisecond ends a minute of valid board time (R31). -/
def MinuteEnds (s : State) : Prop :=
  s.time.valid = true ∧ 59 ≤ s.time.second ∧ 999 ≤ s.time.milli

/-- Board time one millisecond on while valid, but at the end of a minute, whose advance is the minute event's (R31, R32, R39). -/
def clockOn (t : Timekeeper) : Timekeeper :=
  if t.valid = true then
    if t.milli < 999 then { t with milli := t.milli + 1 }
    else if t.second < 59 then { t with milli := 0, second := t.second + 1 } else t
  else t

/-- The time left of a directory operation, one millisecond less where it runs: a lock change, a gather window, a sector being
erased (R74, R79, R81; log entry 17 for a sector not begun). -/
def opOn (op : DirOp) : DirOp :=
  match op with
  | .locking l => .locking { l with remaining := l.remaining - 1 }
  | .gathering e window => .gathering e (window - 1)
  | .erasing e c => .erasing e { c with remaining := c.remaining - 1 }
  | .suspending e c cause merged =>
    .suspending e { c with remaining := if c.begun = true then c.remaining - 1 else c.remaining } cause merged
  | op => op

/-- A scroll's pause in ms or step timer in ns, one millisecond less (R134, R135). -/
def scrollOn : Scroll → Scroll
  | .still => .still
  | .paused strip wait => .paused strip (wait - 1)
  | .moving strip offset wait => .moving strip offset (wait - 1000000)

/-- The running part with every timer one millisecond on, before any event has fallen due (R31, R49, R54, R74, R79, R81, R134,
R135, R138, R141, R150, R151, R190; log entry 7). -/
def millisecondOn (s : State) : State :=
  { s with
    elapsed := s.elapsed + 1
    time := clockOn { s.time with
      freshTimer := if s.time.freshness = .fresh then s.time.freshTimer + 1 else s.time.freshTimer }
    dir := { s.dir with op := opOn s.dir.op }
    paint := { s.paint with
      hold := match s.paint.hold with
        | .held remaining => .held (remaining - 1)
        | h => h
      banner := s.paint.banner.map (fun b => { b with remaining := b.remaining.map (fun ms => ms - 1) })
      callingScroll := scrollOn s.paint.callingScroll
      bannerScroll := scrollOn s.paint.bannerScroll }
    frame := { s.frame with
      refreshTimer := s.frame.refreshTimer + 1
      shift := s.frame.shift.map (fun sh => { sh with remaining := sh.remaining - 1000000 }) }
    key := { s.key with timer := s.key.timer.map (fun ms => ms + 1) } }

/-- An erase runs in a current sector whose time has run out (R81). -/
def SectorDue (op : DirOp) : Prop :=
  (∃ e c, op = .erasing e c ∧ c.remaining = 0) ∨
    ∃ e c cause merged, op = .suspending e c cause merged ∧ c.begun = true ∧ c.remaining = 0

/-- A scroll's pause has run out (R134). -/
def PauseDue (sc : Scroll) : Prop := ∃ strip, sc = .paused strip 0

/-- A scroll's step timer has run out (R135). -/
def StepFallsDue (sc : Scroll) : Prop := ∃ strip offset wait, sc = .moving strip offset wait ∧ wait ≤ 0

/-- The event `c` falls due in the millisecond that leads from `s` to `u`: its timer has reached its limit (R31, R49, R59, R79,
R81, R74, R143, R139, R135, R151, R150, R190). -/
def FallsDue (s u : State) (c : Instr) : Prop :=
  (c = .minuteEvent ∧ MinuteEnds s) ∨
    (c = .feedLapsed ∧ u.time.freshness = .fresh ∧ 60000 * u.settings.holdover ≤ u.time.freshTimer) ∨
    (c = .sweepWindowExpiry ∧ ∃ expiry cap, u.table.window = .opened expiry cap ∧ expiry ≤ u.elapsed) ∨
    (c = .gatherWindowExpiry ∧ ∃ e, u.dir.op = .gathering e 0) ∨ (c = .sectorEraseComplete ∧ SectorDue u.dir.op) ∨
    (c = .lockChangeComplete ∧ ∃ l, u.dir.op = .locking l ∧ l.remaining = 0) ∨
    (c = .holdLapse ∧ u.paint.hold = .held 0) ∨
    (c = .bannerExpiry ∧ ∃ b ∈ u.paint.banner, b.remaining = some 0) ∨
    (c = .scrollPauseExpiry .calling ∧ PauseDue u.paint.callingScroll) ∨
    (c = .scrollPauseExpiry .banner ∧ PauseDue u.paint.bannerScroll) ∨
    (c = .scrollStepDue .calling ∧ StepFallsDue u.paint.callingScroll) ∨
    (c = .scrollStepDue .banner ∧ StepFallsDue u.paint.bannerScroll) ∨
    (c = .shiftComplete ∧ ∃ sh ∈ u.frame.shift, sh.remaining ≤ 0) ∨ (c = .refresh ∧ 10 ≤ u.frame.refreshTimer) ∨
    (c = .staffKeyDebounced ∧ ∃ ms ∈ u.key.timer, 20 ≤ ms)

/-! ### Terms of the feed line -/

/-- A command that delivers an octet: FEED_OCTET, or, once the receiver has taken one, MISSING_OCTET for an octet of value 0x00
with a stop-bit error (R161, R163). -/
def Delivers (c : Instr) (o : Octet) (s : State) : Prop :=
  c = .feedOctet o ∨ (c = .missingOctet ∧ s.feed.started = true ∧ o = { data := 0, stopError := true })

/-- Five overhead octets that make a valid record (R169). -/
def RecordGood (o1 o2 o3 o4 o5 : Octet) : Prop :=
  (∀ o ∈ [o1, o2, o3, o4, o5], o.stopError = false) ∧
    (o1.data.toNat + o2.data.toNat + o3.data.toNat + o4.data.toNat + o5.data.toNat) % 256 = 0

/-- The station state a code names (R169). -/
def StationCodeIs (code : Byte) (st : StationState) : Prop :=
  (code = 0 ∧ st = .normal) ∨ (code = 1 ∧ st = .closed) ∨ (code = 2 ∧ st = .alert) ∨ (code = 3 ∧ st = .dark)

/-- The de-bounce of a valid record's state code (R170). -/
def StationDebounced (code : Byte) (s t : State) : Prop :=
  (∀ st, StationCodeIs code st → t.feed.candidate = some st ∧
    ((s.settings.debounce = false ∨ s.feed.candidate = some st) → t.feed.station = st) ∧
    (s.settings.debounce = true → s.feed.candidate ≠ some st → t.feed.station = s.feed.station)) ∧
  ((∀ st, ¬ StationCodeIs code st) → t.feed.candidate = none ∧ t.feed.station = s.feed.station)

/-- Position p of a span of 64 octets qualifies (R164). -/
def SpanQualifies (span : List Octet) (p : Nat) : Prop :=
  p < 32 ∧ ∃ a b : Octet, span[p]? = some a ∧ span[p + 32]? = some b ∧ a.stopError = false ∧ b.stopError = false ∧
    ((a.data = 0x1B ∧ b.data = 0xE4) ∨ (a.data = 0xE4 ∧ b.data = 0x1B))

/-- The position a span yields: the only one that qualifies, or without the mimic check the lowest (R164). -/
def SpanYields (mimicCheck : Bool) (span : List Octet) (p : Nat) : Prop :=
  SpanQualifies span p ∧ (∀ q, SpanQualifies span q → p ≤ q) ∧ (mimicCheck = true → ∀ q, SpanQualifies span q → q = p)

/-- An octet received well with a value. -/
def GoodOctet (o : Octet) (v : Byte) : Prop := o.data = v ∧ o.stopError = false

/-- The alignment pattern of a frame: 0x1B even, 0xE4 odd (R162). -/
def framePattern (even : Bool) : Byte := if even then 0x1B else 0xE4

/-- The octet after octet `octet` of an ALIGNED frame (R162). -/
def afterOctet (octet : Nat) (even : Bool) (marks : List Bool) : Alignment :=
  if octet = 31 then .aligned 0 (!even) marks else .aligned (octet + 1) even marks

/-- The octets of a message end in the CRC of those after its marker (R175). -/
def CrcGood (octets : List Byte) : Prop :=
  ∃ marker body, octets = marker :: (body ++ crcOctets body)

/-- A payload octet finds the message being reassembled bad: its length octet outside 5..250, a stop-bit error after its marker,
or a CRC that does not match (R175). -/
def FoundBad (u : Unpacker) (o : Octet) : Prop :=
  (u.state = .length ∧ (o.stopError = true ∨ o.data.toNat < 5 ∨ 250 < o.data.toNat)) ∨
    ∃ n, u.state = .body n ∧ (o.stopError = true ∨ (n ≤ 1 ∧ ¬ CrcGood ((u.buffer ++ [o]).map Octet.data)))

/-- The octets held after a bad message's marker taken anew, one after another, each as a payload octet that has just arrived
(R175). -/
def TakenAnew : List Octet → State → State → Prop
  | [], s, t => t = s
  | o :: rest, s, t => ∃ u, exec (.feedOctet o) (s.withFeed { s.feed with alignment := .aligned 2 true [] }) = .next u ∧
      TakenAnew rest u t

/-- The unpacker after a message has been counted bad (R175, R176). -/
def badMessage (u : Unpacker) : Unpacker :=
  { state := .searching, buffer := [], badCount := min (u.badCount + 1) 65535 }

/-! ### Terms of the Place Directory -/

/-- Storage and the tables over place numbers hold their canonical form. -/
def Directory.wf (d : Directory) : Bool :=
  cellsFrom StoredSlot.erased 1024 0 d.storage && cellsFrom SlotState.blank 1024 0 d.slotStates
    && cellsFrom 0 1024 0 d.counts

/-- A text of 1 to `most` glyphs (R69, R99). -/
def GlyphText (most : Nat) (t : Text) : Prop :=
  (1 ≤ t.length ∧ t.length ≤ most) ∧ ∀ b ∈ t, 0x20 ≤ b.toNat ∧ b.toNat ≤ 0x7E

/-- An entry within the ranges of R69. -/
def EntryInRange (e : PlaceEntry) : Prop :=
  GlyphText 32 e.full ∧ (∀ t ∈ e.short, GlyphText 14 t) ∧ e.code.length = 3 ∧
    ∀ b ∈ e.code, 0x41 ≤ b.toNat ∧ b.toNat ≤ 0x5A

/-- WRITE PLACE fails on its own fields (R76 step 1). -/
def WriteOutOfRange (f : WriteFields) : Prop :=
  1023 < f.place ∨ ¬ EntryInRange f.entry

/-- The operation states in which a write, an erase or a lock message is answered DIRECTORY_BUSY (R75). -/
def OpBusy (op : DirOp) : Prop :=
  op = .scanning ∨ (∃ w, op = .writing w) ∨ (∃ l, op = .locking l) ∨ (∃ e c, op = .erasing e c) ∨
    (∃ e c k m, op = .suspending e c k m) ∨ ∃ e c k w, op = .suspendedWriting e c k w

/-- A number is the bit mask of a set of sectors (R179). -/
def MaskIs (set : List Nat) (mask : Nat) : Prop :=
  ∀ n, mask.testBit n = true ↔ n ∈ set

/-- The operation state and the erase-begun marks after an event that brought them to `op` and `marks`: those, or what the paint
suspend request made of them at the event's end (R87). -/
def DirSettled (op : DirOp) (marks : List Nat) (t : State) : Prop :=
  (t.dir.op = op ∧ t.dir.eraseMarks = marks) ∨
    (∃ e c, op = .erasing e c ∧ t.settings.autoSuspend = true ∧ t.dir.op = .suspending e c .paint [] ∧
      t.dir.eraseMarks = marks) ∨
    ∃ e c, op = .suspended e c .paint ∧ t.dir.op = .erasing e { c with begun := true } ∧
      t.dir.eraseMarks = setInsert c.sector marks

/-! ### Frames of an event that ends with the arbiter's decision -/

/-- No request rises, and a BUSY arbiter keeps its job, its pointer and every request (R128). -/
def NoneRaised (s t : State) : Prop :=
  (t.paint.callingStep = true → s.paint.callingStep = true) ∧ (t.paint.clockRequest = true → s.paint.clockRequest = true) ∧
    (t.paint.bannerCompose = true → s.paint.bannerCompose = true) ∧
    (t.paint.bannerStep = true → s.paint.bannerStep = true) ∧
    (s.paint.job ≠ none → Part.requests.same s t ∧ Part.arbiter.same s t)

/-- An event that touches the parts listed: the others are as before, but for what the arbiter's decision may change, and the
directory moves only as the paint suspend request makes it (R87, R128, R144). -/
def FramedBy (touched : List Part) (s t : State) : Prop :=
  SameBut (touched ++ arbiterParts) s t ∧ DirSettled s.dir.op s.dir.eraseMarks t

/-- As `FramedBy`, and the event raises no request. -/
def QuietlyFramed (touched : List Part) (s t : State) : Prop :=
  FramedBy touched s t ∧ NoneRaised s t

/-- As `QuietlyFramed`, and when the arbiter was at rest the parts listed are all that change: the event gives it nothing to
decide. -/
def FramedAtRest (touched : List Part) (s t : State) : Prop :=
  QuietlyFramed touched s t ∧ (Settled s → SameBut touched s t)

/-! ### Terms of slots and erases -/

/-- A slot is changed in storage and in the slot-state table, and no other. -/
def SlotBecomes (place : Nat) (slot : StoredSlot) (state : SlotState) (s t : State) : Prop :=
  cellGet StoredSlot.erased t.dir.storage place = slot ∧ slotState t.dir place = state ∧
    ∀ p, p ≠ place → cellGet StoredSlot.erased t.dir.storage p = cellGet StoredSlot.erased s.dir.storage p ∧
      slotState t.dir p = slotState s.dir p

/-- Every slot of a sector is blank and its erase-begun mark clear, and no other slot is changed (R81). -/
def SectorErased (sector : Nat) (s t : State) : Prop :=
  ∀ p, (sectorOf p = sector → cellGet StoredSlot.erased t.dir.storage p = StoredSlot.erased ∧
      slotState t.dir p = .blank) ∧
    (sectorOf p ≠ sector → cellGet StoredSlot.erased t.dir.storage p = cellGet StoredSlot.erased s.dir.storage p ∧
      slotState t.dir p = slotState s.dir p)

/-- The lowest sector of an erase set as the current sector, with its whole erasing time ahead (R81, R83). -/
def firstOf (sector : Nat) (begun : Bool) : Current :=
  { sector := sector, remaining := 300, begun := begun }

/-- An erase once its current sector is done (R81). -/
def ErasedOne (e e' : EraseJob) (sector : Nat) : Prop :=
  e'.set = e.set.filter (fun a => a ≠ sector) ∧ e'.joined = e.joined ∧
    ∀ a, a ∈ e'.erased ↔ a = sector ∨ a ∈ e.erased

/-! ### Terms of the arbiter -/

/-- The banner owns a line: L − 1 in SHOWING, 1 in ALERT, while one is set (R125). -/
def BannerOwns (s : State) (line : Nat) : Prop :=
  s.paint.banner ≠ none ∧ ((s.board = .showing ∧ line = s.lines - 1) ∨ (s.board = .alert ∧ line = 1))

/-- The hold is HELD (R141). -/
def HoldHeld (s : State) : Prop := ∃ remaining, s.paint.hold = .held remaining

/-- A record stands at a position of the running order (R22). -/
def RecordAtPosition (s : State) (position : Nat) (r : Record) : Prop :=
  ∃ key, s.table.order[position]? = some key ∧ findRecord key s.table.slots = some r

/-- A line's compose would read the name of a place: in SHOWING, the destination and via of a departure line's record, or every
painted stop of a LIVE record at position 0 that is not CANCELLED (R127). -/
def NeedsPlace (s : State) (line place : Nat) : Prop :=
  s.board = .showing ∧ ∃ r, RecordAtPosition s (line - 1) r ∧
    (line ≠ 1 → place = r.destination ∨ r.via = some place) ∧
    (line = 1 → r.life = .live ∧ r.state ≠ .cancelled ∧ ∃ st ∈ r.stops, st.skipped = false ∧ st.place = place)

/-- The bank of a place is free by the latest report: A holds places 0..511 (R69, R88). -/
def BankFree (s : State) (place : Nat) : Prop :=
  (place < 512 → s.paint.bankA = none) ∧ (512 ≤ place → s.paint.bankB = none)

/-- A line may be granted a TABLE job (R127). -/
def LineEligible (s : State) (line : Nat) : Prop :=
  ownerOf s line = .table ∧ ∀ place, NeedsPlace s line place → BankFree s place

/-- A bank is busy with a cause: both with a scan, the bank of the place being written with a write, that of the current sector
with an erase while the state is ERASING or SUSPENDING (R69, R88). -/
def BankBusyFor (op : DirOp) (bank : Bank) (cause : BusyCause) : Prop :=
  (cause = .scan ∧ op = .scanning) ∨
    (cause = .write ∧ ∃ w, (op = .writing w ∨ ∃ e c k, op = .suspendedWriting e c k w) ∧ (bank = .a ↔ w.place < 512)) ∨
    (cause = .erase ∧ ∃ e c, (op = .erasing e c ∨ ∃ k merged, op = .suspending e c k merged) ∧ (bank = .a ↔ c.sector < 4))

/-- When a slot is grantable (R128, R129, R141). -/
def SlotGrantable (s : State) : Slot → Prop
  | .table => ¬ HoldHeld s ∧ ∃ line ∈ s.paint.dirty, LineEligible s line
  | .scroll => s.settings.scrollEnable = true ∧ s.paint.callingStep = true
  | .clock => s.settings.clockEnable = true ∧ s.paint.clockRequest = true
  | .banner => s.settings.bannerEnable = true ∧ (s.paint.bannerCompose = true ∨ s.paint.bannerStep = true)

/-- The current sector of an erase that runs or is suspended (R144). -/
def SectorInHand (op : DirOp) (c : Current) : Prop :=
  (∃ e, op = .erasing e c) ∨ (∃ e cause merged, op = .suspending e c cause merged) ∨
    (∃ e cause, op = .suspended e c cause) ∨ ∃ e cause w, op = .suspendedWriting e c cause w

/-- A place lies in the erase bank, that of the current sector (R69, R144). -/
def InEraseBank (c : Current) (place : Nat) : Prop := place < 512 ↔ c.sector < 4

/-- A dirty line of TABLE needs a place in the erase bank (R144). -/
def WaitsForErase (s : State) (c : Current) (line : Nat) : Prop :=
  line ∈ s.paint.dirty ∧ ownerOf s line = .table ∧ ∃ place, NeedsPlace s line place ∧ InEraseBank c place

/-- The raise of R144: not HELD, and a line waits for the erase bank, which is busy with cause erase, and for that bank alone. -/
def MayRaise (s : State) : Prop :=
  ¬ HoldHeld s ∧ ∃ c line, SectorInHand s.dir.op c ∧
    (if c.sector < 4 then s.paint.bankA else s.paint.bankB) = some .erase ∧ WaitsForErase s c line ∧
    ∀ place, NeedsPlace s line place → InEraseBank c place ∨ BankFree s place

/-- The withdrawal of R144: HELD, or no erase bank, or no line waits for it. -/
def MustWithdraw (s : State) : Prop :=
  HoldHeld s ∨ ∀ c line, SectorInHand s.dir.op c → ¬ WaitsForErase s c line

/-! ### Terms of texts and lines -/

/-- Two decimal digits of a number below 100 (R38, R117). -/
def twoDigits (n : Nat) : Text := [BitVec.ofNat 8 (0x30 + n / 10), BitVec.ofNat 8 (0x30 + n % 10)]

/-- A number below 100 in one or two digits (R46, R111). -/
def plainNumber (n : Nat) : Text := if n < 10 then [BitVec.ofNat 8 (0x30 + n)] else twoDigits n

/-- A clock minute printed as hh:mm (R38, R117). -/
def hhmm (minute : Nat) : Text := twoDigits (minute / 60) ++ [0x3A] ++ twoDigits (minute % 60)

/-- A service minute printed (R38). -/
def printed (s : State) (m : Int) : Text := hhmm ((s.settings.origin + m) % 1440).toNat

/-- The tests of R46, numbered. -/
def StatusTest (s : State) (r : Record) (n : Nat) : Prop :=
  (n = 1 ∧ r.life ≠ .live) ∨ (n = 2 ∧ r.state = .cancelled) ∨
    (n = 3 ∧ (r.state = .unknownDelay ∨ (r.state = .estimated ∧ ∃ d ∈ r.delay, (s.settings.horizon : Int) < d))) ∨
    (n = 4 ∧ 0 < s.settings.countdown ∧ s.time.valid = true ∧ orderKey r - s.time.now ≤ s.settings.countdown) ∨
    (n = 5 ∧ r.state = .estimated ∧ ∃ d ∈ r.delay, (s.settings.lateThreshold : Int) ≤ d) ∨ n = 6

/-- The words of each test of R46. -/
def StatusWords (s : State) (r : Record) (n : Nat) (t : Text) : Prop :=
  (n = 1 → t = if r.state = .cancelled then glyphs "Cancelled" else glyphs "Departed") ∧
    (n = 2 → t = glyphs "Cancelled") ∧ (n = 3 → t = glyphs "Delayed") ∧
    (n = 4 → t = if orderKey r ≤ s.time.now then glyphs "Due"
      else plainNumber (orderKey r - s.time.now).toNat ++ glyphs " min") ∧
    (n = 5 → t = glyphs "Exp " ++ printed s (orderKey r)) ∧ (n = 6 → t = glyphs "On time")

/-- The status text of a record: the first test that applies, with its words (R46). -/
def StatusIs (s : State) (r : Record) (n : Nat) (t : Text) : Prop :=
  (1 ≤ n ∧ n ≤ 6) ∧ StatusTest s r n ∧ (∀ m < n, ¬ StatusTest s r m) ∧ StatusWords s r n t

/-- A name with its via appended when the whole fits (R108). -/
def NameWithVia (size : Nat) (name : Text) (via : Option Text) (shown : Bool) (t : Text) : Prop :=
  (∀ v, via = some v → textWidth .large (name ++ glyphs " via " ++ v) ≤ size →
      shown = true ∧ t = name ++ glyphs " via " ++ v) ∧
    ((∀ v, via = some v → size < textWidth .large (name ++ glyphs " via " ++ v)) → shown = false ∧ t = name)

/-- A prefix of a name of `k` glyphs, without the spaces at its end (R110). -/
def CutAt (name : Text) (k : Nat) (cut : Text) : Prop :=
  ∃ spaces, name.take k = cut ++ spaces ∧ (∀ b ∈ spaces, b = 0x20) ∧ cut.getLast? ≠ some 0x20

/-- A cut form that step 5 takes: not empty, and within the field with its dots (R110). -/
def CutFits (f : Font) (size : Nat) (cut : Text) : Prop :=
  cut ≠ [] ∧ textWidth f (cut ++ glyphs "..") ≤ size

/-- The text of step 5: the longest prefix whose cut form fits, with dots, or the dots alone (R110). -/
def Truncation (f : Font) (size : Nat) (name t : Text) : Prop :=
  (∃ k cut, 1 ≤ k ∧ k < name.length ∧ CutAt name k cut ∧ CutFits f size cut ∧ t = cut ++ glyphs ".." ∧
      ∀ j other, k < j → j < name.length → CutAt name j other → ¬ CutFits f size other) ∨
    (t = glyphs ".." ∧ ∀ j other, 1 ≤ j → j < name.length → CutAt name j other → ¬ CutFits f size other)

/-- A step 1 to 4 of the fallback chain is tried and its name fits (R108, R109). -/
def StepFits (size : Nat) (small : Bool) (e : PlaceEntry) (step : Nat) : Prop :=
  (step = 1 ∧ textWidth .large e.full ≤ size) ∨ (step = 2 ∧ ∃ n ∈ e.short, textWidth .large n ≤ size) ∨
    (step = 3 ∧ small = true ∧ textWidth .small e.full ≤ size) ∨
    (step = 4 ∧ small = true ∧ ∃ n ∈ e.short, textWidth .small n ≤ size)

/-- The destination as the fallback chain gives it: the first step that fits, its font, its text and its via (R108 to R110). -/
def DestinationIs (size : Nat) (small : Bool) (e : PlaceEntry) (via : Option PlaceEntry) (d : DestinationText) : Prop :=
  (1 ≤ d.step ∧ d.step ≤ 5) ∧ (∀ step < d.step, ¬ StepFits size small e step) ∧
    (d.step < 5 → StepFits size small e d.step) ∧
    (d.step = 1 → d.font = .large ∧ NameWithVia size e.full (via.map PlaceEntry.full) d.via d.text) ∧
    (d.step = 2 → d.font = .large ∧ ∃ n ∈ e.short,
      NameWithVia size n (via.map (fun v => v.short.getD v.full)) d.via d.text) ∧
    (d.step = 3 → d.font = .small ∧ d.via = false ∧ d.text = e.full) ∧
    (d.step = 4 → d.font = .small ∧ d.via = false ∧ d.text = e.short.getD e.full) ∧
    (d.step = 5 → d.font = (if small = true then Font.small else Font.large) ∧ d.via = false ∧
      Truncation d.font size (e.short.getD e.full) d.text)

/-- The entry of a place as storage holds it. -/
def Holds (d : Directory) (place : Nat) (e : PlaceEntry) : Prop :=
  (cellGet StoredSlot.erased d.storage place).entry = some e

/-- A painted stop in words, by its full name or its short name where it has one, with its request suffix (R111, R114). -/
def stopWords (short : Bool) (st : Stop) (e : PlaceEntry) : Text :=
  (if short = true then e.short.getD e.full else e.full) ++ (if st.request = true then glyphs " (r)" else [])

/-- The painted stops in words, in list order: those whose skipped flag is clear (R111). -/
def StopsAre (d : Directory) (short : Bool) (r : Record) (words : List Text) : Prop :=
  List.Forall₂ (fun st w => ∃ e, Holds d st.place e ∧ w = stopWords short st e)
    (r.stops.filter (fun st => !st.skipped)) words

/-- The list part of a calling text, by the number of stops (R111). -/
def callingList (words : List Text) : Text :=
  match words with
  | [] => []
  | [w] => glyphs "Calling at: " ++ w ++ glyphs " only."
  | w :: v :: rest => glyphs "Calling at: " ++ (List.intersperse (glyphs ", ") (w :: v :: rest).dropLast).flatten
      ++ glyphs " and " ++ (w :: v :: rest).getLast (by simp) ++ glyphs "."

/-- The calling text: the list part and, with a train length, the train sentence (R111). -/
def callingWords (words : List Text) (train : Option Nat) : Text :=
  match train with
  | none => callingList words
  | some n =>
    (if words = [] then [] else callingList words ++ glyphs " ") ++ glyphs "This train has " ++ plainNumber n
      ++ (if n = 1 then glyphs " coach." else glyphs " coaches.")

/-- The cut list of the first `k` stops (R115). -/
def cutWords (words : List Text) (k : Nat) : Text :=
  glyphs "Calling at: " ++ (List.intersperse (glyphs ", ") (words.take k)).flatten ++ glyphs " and more."

/-- A calling text within the strip cap (R113). -/
def WithinCap (t : Text) : Prop := textWidth .large t ≤ 4096

/-- The calling text of a LIVE record that is not CANCELLED, from its stops under full names and under short ones: whole, with
short names, without the train sentence, or cut (R111, R114, R115). -/
def CallingReduced (full short : List Text) (train : Option Nat) (c : CallingText) : Prop :=
  (WithinCap (callingWords full train) →
      c = { text := callingWords full train, reduction := .none, stops := full.length }) ∧
    (¬ WithinCap (callingWords full train) →
      (WithinCap (callingWords short train) →
        c = { text := callingWords short train, reduction := .shortNames, stops := short.length }) ∧
      (¬ WithinCap (callingWords short train) →
        (WithinCap (callingList short) →
          c = { text := callingList short, reduction := .trainDropped, stops := short.length }) ∧
        (¬ WithinCap (callingList short) →
          c.reduction = .cut ∧ c.text = cutWords short c.stops ∧ (1 ≤ c.stops ∧ c.stops < short.length) ∧
            WithinCap c.text ∧ ∀ k, c.stops < k → k < short.length → ¬ WithinCap (cutWords short k))))

/-- The calling text of the record at position 0 (R111 to R115). -/
def CallingIs (d : Directory) (r : Record) (c : CallingText) : Prop :=
  (r.state = .cancelled → c = { text := glyphs "This train is cancelled.", reduction := .none, stops := 0 }) ∧
    (r.state ≠ .cancelled → r.life ≠ .live → c = { text := [], reduction := .none, stops := 0 }) ∧
    (r.state ≠ .cancelled → r.life = .live → ∃ full short, StopsAre d false r full ∧ StopsAre d true r short ∧
      CallingReduced full short r.train c)

/-- An image of W columns that shows these runs of columns, each from its start column, and is dark elsewhere (R98, R101). -/
def Shows (s : State) (fields : List (Nat × List Column)) (image : List Column) : Prop :=
  image.length = s.columns ∧ ∀ (x : Nat) (c : Column), image[x]? = some c →
    (∃ f ∈ fields, f.1 ≤ x ∧ f.2[x - f.1]? = some c) ∨ (c = 0 ∧ ∀ f ∈ fields, ¬ (f.1 ≤ x ∧ x < f.1 + f.2.length))

/-- An image that is the window of a strip at an offset, dark outside the strip (R133). -/
def WindowOf (s : State) (strip : List Column) (offset : Int) (image : List Column) : Prop :=
  image.length = s.columns ∧ ∀ (x : Nat) (c : Column), image[x]? = some c →
    c = if 0 ≤ (x : Int) + offset then strip.getD ((x : Int) + offset).toNat 0 else 0

/-- The start column of a text centred on the line (R102). -/
def centre (s : State) (f : Font) (t : Text) : Nat := (s.columns - textWidth f t) / 2

/-- A text composed on a line of its own: static from a start column when it fits the board, else a strip shown at offset 0, with
the mode its layout record gives (R113, R118). -/
def TextComposed (s : State) (start : Nat) (t : Text) (layout : LineMode → LayoutRecord) (c : Composed) : Prop :=
  (textWidth .large t ≤ s.columns →
      Shows s [(start, textColumns .large t)] c.image ∧ c.layout = layout .static ∧ c.strip = none) ∧
    (s.columns < textWidth .large t → WindowOf s (textColumns .large t) 0 c.image ∧ c.layout = layout .strip ∧
      c.strip = some (textColumns .large t))

/-- A still line with these fields and this layout record. -/
def StillLine (s : State) (fields : List (Nat × List Column)) (layout : LayoutRecord) (c : Composed) : Prop :=
  Shows s fields c.image ∧ c.layout = layout ∧ c.strip = none

/-- The platform field stands: the filter is empty or holds two or more codes (R103). -/
def PlatformShown (s : State) : Prop := s.settings.filter.length ≠ 1

/-- The platform code as it is set in its field: its font, the text, and the start column (R105). -/
def PlatformSet (s : State) (code : Text) (how : PlatformFont) (f : Font) (t : Text) (start : Nat) : Prop :=
  (textWidth .large code ≤ 20 → how = .large ∧ f = .large ∧ t = code ∧
      start = s.columns - 82 + (20 - textWidth .large code) / 2) ∧
    (20 < textWidth .large code → s.settings.smallFont = true → how = .small ∧ f = .small ∧ t = code ∧
      start = s.columns - 82 + (20 - textWidth .small code) / 2) ∧
    (20 < textWidth .large code → s.settings.smallFont = false → how = .cut ∧ f = .large ∧ start = s.columns - 82 ∧
      ∃ k, t = code.take k ∧ textWidth .large t ≤ 20 ∧
        ∀ j, k < j → j ≤ code.length → 20 < textWidth .large (code.take j))

/-- The fields of a departure line that stand on every board: time, destination and status (R103, R104, R106, R107). -/
def departureFields (s : State) (r : Record) (d : DestinationText) (status : Text) : List (Nat × List Column) :=
  [(0, textColumns .large (printed s r.scheduled)), (36, textColumns d.font d.text),
    (s.columns - textWidth .large status, textColumns .large status)]

/-- The departure line of a record whose destination and via have these entries, with its layout record (R103 to R107,
R122). -/
def DepartureComposed (s : State) (r : Record) (e : PlaceEntry) (via : Option PlaceEntry) (c : Composed) : Prop :=
  ∃ d test status, StatusIs s r test status ∧
    (PlatformShown s → DestinationIs (s.columns - 124) s.settings.smallFont e via d ∧
      ∃ how f t start, PlatformSet s r.platform how f t start ∧
        StillLine s ((start, textColumns f t) :: departureFields s r d status)
          (.departure r.key d.step d.via (some how) test) c) ∧
    (¬ PlatformShown s → DestinationIs (s.columns - 98) s.settings.smallFont e via d ∧
      StillLine s (departureFields s r d status) (.departure r.key d.step d.via none test) c)

/-- A screen text in the large font when it fits the board, else in the small, centred (R119). -/
def ScreenComposed (s : State) (which : ScreenText) (t : Text) (c : Composed) : Prop :=
  (textWidth .large t ≤ s.columns →
      StillLine s [(centre s .large t, textColumns .large t)] (.screen which .large) c) ∧
    (s.columns < textWidth .large t →
      StillLine s [(centre s .small t, textColumns .small t)] (.screen which .small) c)

/-- A line that TABLE composes, by the board state: in SHOWING the calling line or departure line of the record at its position, the
empty-board text on line 0 or a blank line where there is none; in UNAVAILABLE and ALERT their screen text on line 0; and blank
otherwise (R97, R104, R113, R116, R119, R131, R156). -/
def TableLineComposed (s : State) (line : Nat) (c : Composed) : Prop :=
  (s.board = .showing →
    (∀ r, line = 1 → RecordAtPosition s 0 r → (∀ st ∈ r.stops, ∃ e, Holds s.dir st.place e ∧ EntryInRange e) →
      (∀ n ∈ r.train, n ≤ 16) → ∃ text, CallingIs s.dir r text ∧
        TextComposed s 0 text.text
          (fun mode => .calling r.key (textWidth .large text.text) mode text.reduction text.stops) c) ∧
    (∀ r e via, line ≠ 1 → RecordAtPosition s (line - 1) r → PlatformCode r.platform → Holds s.dir r.destination e →
      (r.via = none → via = none) → (∀ p, r.via = some p → ∃ v, via = some v ∧ Holds s.dir p v) →
      DepartureComposed s r e via c) ∧
    (line = 0 → s.table.order = [] →
      StillLine s [(centre s .large (glyphs "No departures"), textColumns .large (glyphs "No departures"))] .empty c) ∧
    (line ≠ 0 → s.table.order.length ≤ line - 1 → StillLine s [] .blank c)) ∧
  (s.board = .unavailable → line = 0 → ScreenComposed s .listen (glyphs "Please listen for announcements") c) ∧
  (s.board = .alert → line = 0 → ScreenComposed s .follow (glyphs "Please follow staff instructions") c) ∧
  (s.board ≠ .showing → (line ≠ 0 ∨ (s.board ≠ .unavailable ∧ s.board ≠ .alert)) → StillLine s [] .blank c)

/-- The width of a glyph by its class, and its columns: lit within the rows of its font's cell, the space glyph dark (R99,
R100). -/
def GlyphIs (f : Font) (c : Byte) (width : Nat) (columns : List Column) : Prop :=
  (c ∈ glyphs ".,:;'!" → width = if f = .large then 2 else 1) ∧
    (c ∈ glyphs "ijlI()[]" → width = if f = .large then 3 else 2) ∧
    (c = 0x20 → width = if f = .large then 4 else 3) ∧
    (c ∈ glyphs "frt-/&" → width = if f = .large then 5 else 3) ∧
    (c ∈ glyphs "mwMW" → width = if f = .large then 8 else 5) ∧
    (c ∉ glyphs ".,:;'!ijlI()[] frt-/&mwMW" → width = if f = .large then 6 else 4) ∧
    columns.length = width ∧ (c = 0x20 → ∀ column ∈ columns, column = 0) ∧
    ∀ column ∈ columns, ∀ row, column.getLsbD row = true →
      if f = .large then 2 ≤ row ∧ row ≤ 12 else 5 ≤ row ∧ row ≤ 11

/-! ### Terms of the Paint Engine and the return line -/

/-- A job has ended: the engine was free when the event came to the arbiter's decision, the dirty lines and requests as they stood
but for the two steps, which stood as given (R128, R130). -/
def EngineFreed (callingStep bannerStep : Bool) (s t : State) : Prop :=
  ∃ u : State, t = settle u ∧ u.paint.job = none ∧ u.paint.lastGranted = s.paint.lastGranted ∧
    u.paint.dirty = s.paint.dirty ∧ u.paint.callingStep = callingStep ∧ u.paint.clockRequest = s.paint.clockRequest ∧
    u.paint.bannerCompose = s.paint.bannerCompose ∧ u.paint.bannerStep = bannerStep ∧
    u.paint.suspendRequest = s.paint.suspendRequest ∧ u.dir = s.dir

/-- The interval between steps in ns (R135). -/
def stepNs (s : State) : Int := (1000000000 / s.settings.scrollRate : Nat)

/-- A scroll at offset 0 beginning its pause: MOVING in the same event under a pause of 0 (R134). -/
def pausedAt (s : State) (strip : List Column) : Scroll :=
  if s.settings.scrollPause = 0 then .moving strip 0 (stepNs s) else .paused strip (1000 * s.settings.scrollPause)

/-- The offset after one step: one more, or −W from the strip's last (R136). -/
def nextOffset (s : State) (strip : List Column) (offset : Int) : Int :=
  if offset + 1 = strip.length then -(boardWidth s.geometry : Int) else offset + 1

/-- The dirty line set after an event that left it holding these lines, less at most the one an idle arbiter granted. -/
def NowDirty (lines : List Nat) (t : State) : Prop :=
  (∀ n, n ∈ t.paint.dirty ↔ n ∈ lines) ∨
    ∃ line out, t.paint.job = some (.table line out) ∧ ∀ n, n ∈ t.paint.dirty ↔ n ∈ lines ∧ n ≠ line

/-- A number taken as the nearest end of its range when given, else kept (R187). -/
def Clamped (lo hi : Nat) (given : Option Nat) (old new : Nat) : Prop :=
  (given = none → new = old) ∧
    ∀ n, given = some n → new = if n < lo then lo else if hi < n then hi else n

/-- A number given lies outside its range (R187). -/
def GivenOutside (lo hi : Nat) (given : Option Nat) : Prop :=
  ∃ n ∈ given, n < lo ∨ hi < n

/-- The settings an accepted SET BOARD leaves (R186, R187). -/
def SettingsTaken (f : BoardFields) (old new : Settings) : Prop :=
  (f.filter = none → new.filter = old.filter) ∧
    (∀ l, f.filter = some l → new.filter.Pairwise (fun a b => textBefore a b = true) ∧ ∀ c, c ∈ new.filter ↔ c ∈ l) ∧
    Clamped 0 359 f.origin old.origin new.origin ∧ Clamped 0 10 f.sweepLength old.sweepLength new.sweepLength ∧
    Clamped 1 60 f.holdover old.holdover new.holdover ∧ Clamped 1 30 f.holdLimit old.holdLimit new.holdLimit ∧
    Clamped 0 30 f.countdown old.countdown new.countdown ∧
    Clamped 1 10 f.lateThreshold old.lateThreshold new.lateThreshold ∧
    Clamped 30 999 f.horizon old.horizon new.horizon ∧ Clamped 0 10 f.grace old.grace new.grace ∧
    Clamped 1 60 f.dwell old.dwell new.dwell ∧ Clamped 10 100 f.scrollRate old.scrollRate new.scrollRate ∧
    Clamped 0 10 f.scrollPause old.scrollPause new.scrollPause ∧
    Clamped 4 6 f.alignWindow old.alignWindow new.alignWindow ∧
    new.scrollEnable = f.scrollEnable.getD old.scrollEnable ∧ new.clockEnable = f.clockEnable.getD old.clockEnable ∧
    new.bannerEnable = f.bannerEnable.getD old.bannerEnable ∧ new.autoSuspend = f.autoSuspend.getD old.autoSuspend ∧
    new.mimicCheck = f.mimicCheck.getD old.mimicCheck ∧ new.debounce = f.debounce.getD old.debounce ∧
    new.smallFont = f.smallFont.getD old.smallFont

/-- Some number of a SET BOARD lies outside its range and is clamped (R187). -/
def BoardClamped (f : BoardFields) : Prop :=
  GivenOutside 0 359 f.origin ∨ GivenOutside 0 10 f.sweepLength ∨ GivenOutside 1 60 f.holdover ∨
    GivenOutside 1 30 f.holdLimit ∨ GivenOutside 0 30 f.countdown ∨ GivenOutside 1 10 f.lateThreshold ∨
    GivenOutside 30 999 f.horizon ∨ GivenOutside 0 10 f.grace ∨ GivenOutside 1 60 f.dwell ∨
    GivenOutside 10 100 f.scrollRate ∨ GivenOutside 0 10 f.scrollPause ∨ GivenOutside 4 6 f.alignWindow

/-- The octets of a result with no content: marker, length 7, kind, tag, outcome, the detail high octet first, and the CRC of
all after the marker (R175, R178). -/
def decidedRecord (kind tag : Byte) (outcome detail : Nat) : List Byte :=
  let body : List Byte := [7, kind, tag, BitVec.ofNat 8 outcome, BitVec.ofNat 8 (detail / 256), BitVec.ofNat 8 detail]
  0xC3 :: (body ++ crcOctets body)

/-! ### Terms of the reads' contents -/

/-- A number in one octet. -/
def byteOf (n : Nat) : Byte := BitVec.ofNat 8 n

/-- A number in two octets, high octet first (R184). -/
def wordOf (n : Nat) : List Byte := [byteOf (n / 256), byteOf n]

/-- A signed number in two octets, two's complement (R184). -/
def signedOf (i : Int) : List Byte := wordOf (i % 65536).toNat

/-- A yes-or-no item: 1 or 0 (R184). -/
def flagOf (b : Bool) : Byte := if b = true then 1 else 0

/-- An item that may be absent, after its presence octet (R184). -/
def itemOf {α : Type} (f : α → List Byte) (o : Option α) : List Byte :=
  match o with
  | none => [0]
  | some a => [1] ++ f a

/-- A text after its count (R184). -/
def countedText (t : Text) : List Byte := [byteOf t.length] ++ t

/-- The content of READ SERVICE, item by item of R28 (log entry 18 for the leave cause). -/
def ServiceContentIs (s : State) (r : Record) (content : List Byte) : Prop :=
  ∃ position : Option Nat, (position = none ↔ r.key ∉ s.table.order) ∧
    (∀ p, position = some p → s.table.order[p]? = some r.key ∧ ∀ i < p, s.table.order[i]? ≠ some r.key) ∧
    content = wordOf r.key ++ [r.revision] ++ signedOf r.scheduled ++
      ([match r.state with | .scheduled => 0 | .estimated => 1 | .unknownDelay => 2 | .cancelled => 3] : List Byte) ++
      itemOf signedOf r.delay ++ countedText r.platform ++ wordOf r.destination ++ itemOf wordOf r.via ++
      [byteOf r.stops.length] ++
      r.stops.flatMap (fun st => wordOf st.place ++ [flagOf st.request + 2 * flagOf st.skipped]) ++
      itemOf (fun n => [byteOf n]) r.train ++
      ((match r.life with
        | .live => [0, 0]
        | .leaving .retired => [1, 1, 0]
        | .leaving .timedOut => [1, 1, 1]
        | .leaving .rolledOff => [1, 1, 2]) : List Byte) ++
      signedOf (orderKey r) ++ [flagOf (decide (s.settings.filter = [] ∨ r.platform ∈ s.settings.filter))] ++
      itemOf (fun p => [byteOf p]) position ++ [flagOf (decide (∃ p ∈ position, p < s.lines - 2))]

/-- A place's bank is not busy, and its slot VALID: its names are PRESENT (R90). -/
def NamesPresent (s : State) (place : Nat) : Prop :=
  slotState s.dir place = .valid ∧ bankBusy s.dir.op (if place < 512 then .a else .b) = none

/-- The content of READ PLACE, item by item of R90 (log entry 19 for the names). -/
def PlaceContentIs (s : State) (place : Nat) (content : List Byte) : Prop :=
  ∃ names, content = wordOf place ++ [byteOf (slotStateCode (slotState s.dir place))] ++
      wordOf (cellGet 0 s.dir.counts place) ++ [flagOf (decide (place / 128 ∈ s.dir.locks)),
        flagOf (decide (place / 128 ∈ s.dir.op.eraseSet))] ++ names ∧
    (∀ e, NamesPresent s place → Holds s.dir place e →
      names = [0] ++ ([1] ++ countedText e.full) ++ itemOf countedText e.short ++ ([1] ++ e.code)) ∧
    (slotState s.dir place = .valid → ¬ NamesPresent s place → names = [1, 0, 0, 0]) ∧
    (slotState s.dir place ≠ .valid → names = [2, 0, 0, 0])

/-- A section of READ BOARD: its code, the number of its octets, its items (R185; log entry 22). -/
def sectionOf (code : Byte) (items : List Byte) : List Byte := [code, byteOf items.length] ++ items

/-- Section 1 (R52; log entry 23 for the freshness timer). -/
def timeItems (s : State) : List Byte :=
  wordOf s.time.minute ++ [byteOf s.time.second] ++ wordOf s.time.milli ++ [flagOf s.time.valid] ++ wordOf s.time.now ++
    [flagOf s.time.rollHold, byteOf s.time.inconsistent, if s.time.freshness = .fresh then 0 else 1] ++
    wordOf (s.time.freshTimer / 1000)

/-- Section 2 (R68). -/
def tableItems (s : State) : List Byte :=
  [byteOf s.records.length, byteOf (s.records.filter (fun r => !decide (r.life = .live))).length] ++
    match s.table.window with
    | .closed => [0, 0, 0]
    | .opened expiry cap => [1] ++ itemOf wordOf (some (expiry - s.elapsed)) ++ itemOf wordOf (some (cap - s.elapsed))

/-- How many slots hold a state (R91). -/
def slotsIn (state : SlotState) (d : Directory) : Nat :=
  ((List.range 1024).filter (fun p => decide (slotState d p = state))).length

/-- Section 3 (R91; log entries 19, 21 and 37). -/
def DirectoryItems (s : State) (items : List Byte) : Prop :=
  ∃ (cause : Option SuspendCause) (current : Option Current) (joined : List Header) (erased locked : Nat),
    (∀ k, cause = some k ↔ (∃ e c m, s.dir.op = .suspending e c k m) ∨ (∃ e c, s.dir.op = .suspended e c k) ∨
      ∃ e c w, s.dir.op = .suspendedWriting e c k w) ∧
    (∀ c, current = some c ↔ SectorInHand s.dir.op c) ∧
    (∀ e : EraseJob, ((∃ w, s.dir.op = .gathering e w) ∨ (∃ c, s.dir.op = .erasing e c) ∨
      (∃ c k m, s.dir.op = .suspending e c k m) ∨ (∃ c k, s.dir.op = .suspended e c k) ∨
      ∃ c k w, s.dir.op = .suspendedWriting e c k w) → joined = e.joined ∧ MaskIs e.set erased) ∧
    ((s.dir.op = .scanning ∨ s.dir.op = .ready ∨ (∃ w, s.dir.op = .writing w) ∨ ∃ l, s.dir.op = .locking l) →
      joined = [] ∧ erased = 0) ∧
    MaskIs s.dir.locks locked ∧
    items = [byteOf (dirOpCode s.dir.op)] ++
      itemOf (fun k => [match k with | .commanded => 0 | .paint => 1]) cause ++ [byteOf erased] ++
      itemOf (fun c => [byteOf c.sector] ++ wordOf c.remaining) current ++ [byteOf joined.length, byteOf locked,
        flagOf (bankBusy s.dir.op .a).isSome, flagOf (bankBusy s.dir.op .b).isSome, flagOf s.paint.suspendRequest] ++
      wordOf (slotsIn .valid s.dir) ++ wordOf (slotsIn .defective s.dir)

/-- A layout record in octets: the number of its kind and its items, in the order of R122 (R123, R184; log entry 19). -/
def layoutItems (l : LayoutRecord) : List Byte :=
  match l with
  | .departure key step via platform test =>
    ([0] : List Byte) ++ wordOf key ++ [byteOf step, flagOf via] ++
      ((match platform with
        | none => [0, 0]
        | some .large => [1, 1, 0]
        | some .small => [1, 1, 1]
        | some .cut => [1, 1, 2]) : List Byte) ++ [byteOf test]
  | .calling key width mode reduction stops =>
    ([1] : List Byte) ++ wordOf key ++ wordOf width ++ ([if mode = .static then 0 else 1] : List Byte) ++
      ([match reduction with | .none => 0 | .shortNames => 1 | .trainDropped => 2 | .cut => 3] : List Byte) ++ [byteOf stops]
  | .clock minute => ([2] : List Byte) ++ itemOf wordOf minute
  | .banner width mode => ([3] : List Byte) ++ wordOf width ++ ([if mode = .static then 0 else 1] : List Byte)
  | .screen text font => [4, if text = .listen then 0 else 1, if font = .large then 0 else 1]
  | .empty => [5]
  | .blank => [6]
  | .none => [7]

/-- Section 4 (R123). -/
def layoutsItems (s : State) : List Byte :=
  let shown := decide (s.settings.filter.length ≠ 1)
  [byteOf s.geometry] ++ wordOf s.columns ++ [byteOf s.lines, flagOf shown,
    byteOf (if shown = true then s.columns - 124 else s.columns - 98)] ++ s.paint.layouts.flatMap layoutItems

/-- A scroll in octets: its state, then its offset and strip width when it is not STILL (R147; log entry 19). -/
def scrollItems (sc : Scroll) : List Byte :=
  match sc with
  | .still => [0, 0, 0]
  | .paused strip _ => [1] ++ itemOf signedOf (some 0) ++ itemOf wordOf (some strip.length)
  | .moving strip offset _ => [2] ++ itemOf signedOf (some offset) ++ itemOf wordOf (some strip.length)

/-- The number of a slot (R124). -/
def slotNo (slot : Slot) : Byte :=
  match slot with
  | .table => 0
  | .scroll => 1
  | .clock => 2
  | .banner => 3

/-- Section 5 (R147; log entries 21 and 23). -/
def PaintItems (s : State) (items : List Byte) : Prop :=
  ∃ dirty, MaskIs s.paint.dirty dirty ∧
    items = (match s.paint.job with
        | none => [0, 0, 0]
        | some (.table line _) => [1, 1, 0, 1, byteOf line]
        | some (.callingStep _) => [1, 1, 1, 0]
        | some (.clock _) => [1, 1, 2, 0]
        | some (.bannerCompose _) => [1, 1, 3, 0]
        | some (.bannerStep _) => [1, 1, 3, 0]) ++
      [slotNo s.paint.lastGranted, byteOf dirty, flagOf s.paint.callingStep, flagOf s.paint.clockRequest,
        flagOf s.paint.bannerCompose, flagOf s.paint.bannerStep, flagOf s.settings.scrollEnable,
        flagOf s.settings.clockEnable, flagOf s.settings.bannerEnable] ++
      (match s.paint.hold with
        | .free => [0, 0]
        | .held remaining => [1] ++ itemOf wordOf (some remaining)
        | .lapsed => [2, 0]) ++
      itemOf (fun b => wordOf b.width ++ itemOf (fun ms => wordOf ((ms + 999) / 1000)) b.remaining) s.paint.banner ++
      scrollItems s.paint.callingScroll ++ scrollItems s.paint.bannerScroll ++
      [if s.paint.suspendRequest = true then 0 else 1]

/-- Section 6 (R160; log entry 21). -/
def FrameItems (s : State) (items : List Byte) : Prop :=
  ∃ waiting, (∀ n, waiting.testBit n = true ↔ ∃ image, s.frame.pending[n]? = some (some image)) ∧
    items = [byteOf (boardCode s.board), byteOf (stationCode s.feed.station), byteOf waiting,
      if s.frame.blank = true then 0 else 1, if s.frame.shift = none then 1 else 0]

/-- Section 7 (R173; log entry 19). -/
def feedItems (s : State) : List Byte :=
  [byteOf (alignmentCode s.feed.alignment),
    match s.feed.alignment with
    | .aligned _ _ marks => byteOf (marks.count true)
    | _ => 0] ++ itemOf (fun p => [byteOf p]) s.feed.position ++
    itemOf (fun r => wordOf r.minute ++ [byteOf r.second, r.state]) s.feed.lastRecord ++
    itemOf (fun st => [byteOf (stationCode st)]) s.feed.candidate ++ [byteOf (stationCode s.feed.station)] ++
    wordOf s.feed.lossCount

/-- Section 8 (R185). -/
def messageItems (s : State) : List Byte :=
  ([match s.unpacker.state with | .searching => 0 | .length => 1 | .body _ => 2] : List Byte) ++ wordOf s.unpacker.badCount ++
    [byteOf s.results.queue.length, flagOf s.results.lost]

/-- Section 9 (R186, R191; log entry 21 for the staff key). -/
def settingsItems (s : State) : List Byte :=
  [byteOf s.settings.filter.length] ++ s.settings.filter.flatMap countedText ++ wordOf s.settings.origin ++
    [byteOf s.settings.sweepLength, byteOf s.settings.holdover, byteOf s.settings.holdLimit, byteOf s.settings.countdown,
      byteOf s.settings.lateThreshold] ++ wordOf s.settings.horizon ++
    [byteOf s.settings.grace, byteOf s.settings.dwell, byteOf s.settings.scrollRate, byteOf s.settings.scrollPause,
      flagOf s.settings.scrollEnable, flagOf s.settings.clockEnable, flagOf s.settings.bannerEnable,
      flagOf s.settings.autoSuspend, byteOf s.settings.alignWindow, flagOf s.settings.mimicCheck,
      flagOf s.settings.debounce, flagOf s.settings.smallFont, byteOf s.geometry, flagOf s.key.asserted]

/-- The content of READ BOARD: its nine sections in order (R185). -/
def BoardContentIs (s : State) (content : List Byte) : Prop :=
  ∃ directory paint frame, DirectoryItems s directory ∧ PaintItems s paint ∧ FrameItems s frame ∧
    content = sectionOf 1 (timeItems s) ++ sectionOf 2 (tableItems s) ++ sectionOf 3 directory ++
      sectionOf 4 (layoutsItems s) ++ sectionOf 5 paint ++ sectionOf 6 frame ++ sectionOf 7 (feedItems s) ++
      sectionOf 8 (messageItems s) ++ sectionOf 9 (settingsItems s)

/-- A result record of a read that is DONE: marker, length, kind, tag, outcome, detail 0, the content, and the CRC (R178). -/
def doneRecord (kind tag : Byte) (content : List Byte) : List Byte :=
  let body : List Byte := [byteOf (content.length + 7), kind, tag, 0, 0, 0] ++ content
  0xC3 :: (body ++ crcOctets body)

/-- The codes the manual gives to states (R70, R75, R154, R169, R178). -/
def CodesAsGiven : Prop :=
  (slotStateCode .blank = 0 ∧ slotStateCode .writing = 1 ∧ slotStateCode .valid = 2 ∧ slotStateCode .defective = 3) ∧
    (dirOpCode .scanning = 0 ∧ dirOpCode .ready = 1 ∧ (∀ w, dirOpCode (.writing w) = 2) ∧
      (∀ l, dirOpCode (.locking l) = 3) ∧ (∀ e w, dirOpCode (.gathering e w) = 4) ∧
      (∀ e c, dirOpCode (.erasing e c) = 5) ∧ (∀ e c k m, dirOpCode (.suspending e c k m) = 6) ∧
      (∀ e c k, dirOpCode (.suspended e c k) = 7) ∧ ∀ e c k w, dirOpCode (.suspendedWriting e c k w) = 8) ∧
    (boardCode .starting = 0 ∧ boardCode .showing = 1 ∧ boardCode .closed = 2 ∧ boardCode .unavailable = 3 ∧
      boardCode .alert = 4 ∧ boardCode .dark = 5) ∧
    (stationCode .normal = 0 ∧ stationCode .closed = 1 ∧ stationCode .alert = 2 ∧ stationCode .dark = 3) ∧
    ((∀ l, alignmentCode (.hunting l) = 0) ∧ (∀ k p, alignmentCode (.confirming k p) = 1) ∧
      ∀ k e m, alignmentCode (.aligned k e m) = 2)

end Sys2Proof.Machine
end

