-- ==== Sys2Proof/WellFormed.lean ====
section
/-! DEFINITION. Well-formed commands: operands the feed line and the pins can carry (R178, R179). Values the owners then
refuse by range are well formed. -/

namespace Sys2Proof

/-- A number of one octet. -/
def fitsOctet (n : Nat) : Bool := decide (n < 256)

/-- A number of two octets. -/
def fitsPair (n : Nat) : Bool := decide (n < 65536)

/-- A two's complement number of two octets. -/
def fitsSigned (i : Int) : Bool := decide (-32768 ≤ i) && decide (i ≤ 32767)

/-- A value that may be absent. -/
def fitsIf {α : Type} (f : α → Bool) : Option α → Bool
  | none => true
  | some a => f a

/-- A text or list whose count is one octet. -/
def countFits {α : Type} (l : List α) : Bool := decide (l.length < 256)

/-- A list of stop indices. -/
def indicesFit (l : List Nat) : Bool := countFits l && l.all fitsOctet

/-- The parameters of POST SERVICE. -/
def PostFields.fits (f : PostFields) : Bool :=
  fitsPair f.key && fitsSigned f.scheduled && fitsOctet f.state && countFits f.platform && fitsPair f.destination
    && fitsIf fitsSigned f.delay && fitsIf fitsPair f.via && countFits f.stops
    && f.stops.all (fun st => fitsPair st.place) && fitsIf fitsOctet f.train

/-- The parameters of AMEND SERVICE. -/
def AmendFields.fits (f : AmendFields) : Bool :=
  fitsPair f.key && fitsIf fitsSigned f.delay && fitsIf fitsOctet f.state && fitsIf countFits f.platform
    && fitsIf fitsOctet f.train && fitsIf indicesFit f.skip && fitsIf indicesFit f.restore

/-- The parameters of WRITE PLACE. -/
def WriteFields.fits (f : WriteFields) : Bool :=
  fitsPair f.place && countFits f.entry.full && fitsIf countFits f.entry.short && decide (f.entry.code.length = 3)

/-- The parameters of SET BANNER. -/
def BannerFields.fits (f : BannerFields) : Bool :=
  countFits f.text && fitsPair f.duration

/-- The parameters of SET BOARD. -/
def BoardFields.fits (f : BoardFields) : Bool :=
  fitsIf (fun l => countFits l && l.all countFits) f.filter
    && fitsIf fitsPair f.origin && fitsIf fitsPair f.horizon
    && fitsIf fitsOctet f.sweepLength && fitsIf fitsOctet f.holdover && fitsIf fitsOctet f.holdLimit
    && fitsIf fitsOctet f.countdown && fitsIf fitsOctet f.lateThreshold && fitsIf fitsOctet f.grace
    && fitsIf fitsOctet f.dwell && fitsIf fitsOctet f.scrollRate && fitsIf fitsOctet f.scrollPause
    && fitsIf fitsOctet f.alignWindow

/-- Whether a command's operands are within what carries them. -/
def wellFormed : Instr → Bool
  | .feedOctet _ => true
  | .missingOctet => true
  | .overheadRecord _ _ _ _ _ => true
  | .minuteEvent => true
  | .feedLapsed => true
  | .postService _ f => f.fits
  | .amendService _ f => f.fits
  | .retireService _ key => fitsPair key
  | .clearBoard _ => true
  | .readService _ key => fitsPair key
  | .sweepWindowExpiry => true
  | .writePlace _ f => f.fits
  | .writeComplete _ => true
  | .eraseSector _ sector => fitsOctet sector
  | .gatherWindowExpiry => true
  | .sectorEraseComplete => true
  | .suspendErase _ => true
  | .suspensionComplete => true
  | .resumeErase _ => true
  | .lockSectors _ _ => true
  | .freeSectors _ _ => true
  | .lockChangeComplete => true
  | .readPlace _ place => fitsPair place
  | .scanEnd => true
  | .holdBoard _ => true
  | .releaseBoard _ => true
  | .holdLapse => true
  | .setBanner _ f => f.fits
  | .clearBanner _ => true
  | .bannerExpiry => true
  | .setBoard _ f => f.fits
  | .restart => true
  | .readBoard _ => true
  | .tableJobComplete => true
  | .clockJobComplete => true
  | .callingStepComplete => true
  | .bannerComposeComplete => true
  | .bannerStepComplete => true
  | .scrollPauseExpiry _ => true
  | .scrollStepDue _ => true
  | .refresh => true
  | .shiftComplete => true
  | .returnOctet => true
  | .staffKeyInputChange _ => true
  | .staffKeyDebounced => true
  | .powerOn => true
  | .resetLineAssert => true
  | .resetRelease _ _ => true

end Sys2Proof
end

