-- ==== Sys2Proof/Certificates/Slice0/Obligations.lean ====
section
/-! DEFINITION. The statements for the provers. Each docstring names the rules of spec/ it formalises and, where it rests on a
choice of the model, the log entry. -/

open Sys2Proof Sys2Proof.Machine

/-! ### The part as a whole -/

/-- The command at the front of the queue is the one that runs, on the queue's rest. -/
def Obligations.StepRunsFrontCommand : Prop :=
  ∀ (c : Instr) (rest : List Instr) (s : State), step (s.withPending (c :: rest)) = exec c (s.withPending rest)

/-- With no command waiting the part idles: nothing while it is held in reset; while it runs every timer moves on one millisecond,
and when none has run out that is all; when exactly one has, its event follows, as its command runs it (the model's choice, log
entry 7, and 17 for a sector not begun; no order is stated for timers that run out together). No idle step changes a setting or takes anything from the feed. -/
def Obligations.EmptyQueuePassesTime : Prop :=
  ∀ s : State, s.pending = [] →
    (s.phase = .inReset → step s = .next s) ∧
    (s.phase = .running →
      ((∀ c, ¬ FallsDue s (millisecondOn s) c) → step s = .next (millisecondOn s)) ∧
      (∀ c, WindowInv s → (∀ e k cause, s.dir.op = .suspended e k cause → 0 < k.remaining) →
        FallsDue s (millisecondOn s) c → (∀ d, FallsDue s (millisecondOn s) d → d = c) →
        step s = exec c (millisecondOn s)) ∧
      ∃ t, step s = .next t ∧ t.elapsed = s.elapsed + 1 ∧
        SameBut (([.elapsed, .key, .results, .time, .board, .slots, .order, .window, .storage, .slotStates, .counts,
          .lockFlags, .locks, .hold, .banner, .callingScroll, .bannerScroll, .frame] : List Part) ++ arbiterParts) s t)

/-- While the part is held in reset no command has an effect but the two resets, the release and the staff key input, whose
level alone is followed: no de-bounce runs and the de-bounced level stands (R190; log entry 6). -/
def Obligations.HeldInResetTakesNothing : Prop :=
  ∀ (c : Instr) (s : State), s.phase = .inReset → c ≠ .powerOn → c ≠ .resetLineAssert →
    (∀ a b, c ≠ .resetRelease a b) →
    ∃ t, exec c s = .next t ∧ SameBut [.key] s t ∧ ((∀ b, c ≠ .staffKeyInputChange b) → t = s) ∧
      ∀ b, c = .staffKeyInputChange b → t.key = { input := b, timer := none, asserted := s.key.asserted }

/-! ### Invariants every step keeps -/

/-- The invariants hold after reset. -/
def Obligations.InvariantsHoldAtReset : Prop :=
  TableInv State.reset ∧ WindowInv State.reset ∧ TimeInv State.reset ∧ QueueInv State.reset ∧ Settled State.reset ∧
    PaintInv State.reset ∧ DirectoryInv State.reset

/-- Every step keeps the Service Table in order: unique keys, records in range, the running order sorted, the reference counts
equal to the references held (R1, R2, R5, R14, R22). -/
def Obligations.ServiceTableInvariantKept : Prop :=
  ∀ s t : State, TableInv s → step s = .next t → TableInv t

/-- Every step keeps the sweep window within its cap, with no LEAVING record under a CLOSED window, and the table empty while the
part is held in reset (R6, R55, R56, R62). -/
def Obligations.SweepWindowInvariantKept : Prop :=
  ∀ s t : State, WindowInv s → step s = .next t → WindowInv t

/-- Every step keeps board time, "now", the freshness timer and the derived board state as their rules give them (R31, R35, R37,
R49, R154). -/
def Obligations.TimeInvariantKept : Prop :=
  ∀ s t : State, TimeInv s → step s = .next t → TimeInv t

/-- Every step keeps the result queue within 16 entries with at most one read of an object (R182, R183). -/
def Obligations.ResultQueueInvariantKept : Prop :=
  ∀ s t : State, QueueInv s → step s = .next t → QueueInv t

/-- Every step leaves the arbiter at rest: never idle while a slot is grantable, with the suspend request as its conditions give
it (R128, R144, R145). -/
def Obligations.ArbiterAtRestKept : Prop :=
  ∀ s t : State, Settled s → step s = .next t → Settled t

/-- Every step keeps lines, images, jobs and scrolls in range and under their owners (R122, R125, R126, R133 to R137, R140,
R148). -/
def Obligations.PaintInvariantKept : Prop :=
  ∀ s t : State, SettingsOK s.settings → PaintInv s → step s = .next t → PaintInv t

/-- Every step keeps the Place Directory in order: each slot reads as its marks say, no sector of the erase set is locked or
referenced, and every referenced place is VALID (R10, R69, R70, R72, R75, R78, R93). -/
def Obligations.DirectoryInvariantKept : Prop :=
  ∀ s t : State, TableInv s → DirectoryInv s → step s = .next t → DirectoryInv t

/-! ### POST SERVICE -/

/-- POST SERVICE is refused on its own fields with OUT_OF_RANGE, and changes nothing (R8, R9). -/
def Obligations.PostRefusedOnItsFields : Prop :=
  ∀ (h : Header) (f : PostFields) (s : State), Listening s → PostOutOfRange f →
    ∃ t, exec (.postService h f) s = .next t ∧ Answered kindPost h 6 0 s t ∧ FramedAtRest [.results] s t

/-- The revision rule: a duplicate is answered DONE and a stale message STALE_REVISION with the revision held, and neither
changes a record, for a POST SERVICE whatever the record's lifecycle and for an AMEND SERVICE of a LIVE record (R7). -/
def Obligations.DuplicateAndStaleChangeNothing : Prop :=
  ∀ (h : Header) (s : State) (r : Record), Listening s →
    (∀ f : PostFields, ¬ PostOutOfRange f → f.key < 65536 → findRecord f.key s.table.slots = some r →
      ¬ Newer f.revision r.revision →
      ∃ t outcome detail, exec (.postService h f) s = .next t ∧ Answered kindPost h outcome detail s t ∧
        FramedAtRest [.results] s t ∧
        (revisionDistance f.revision r.revision = 0 → outcome = 0 ∧ PositionIs s f.key detail) ∧
        (128 ≤ revisionDistance f.revision r.revision → outcome = 4 ∧ detail = r.revision.toNat)) ∧
    (∀ f : AmendFields, ¬ AmendOutOfRange f → f.key < 65536 → findRecord f.key s.table.slots = some r →
      r.life = .live → ¬ Newer f.revision r.revision →
      ∃ t outcome detail, exec (.amendService h f) s = .next t ∧ Answered kindAmend h outcome detail s t ∧
        FramedAtRest [.results] s t ∧
        (revisionDistance f.revision r.revision = 0 → outcome = 0 ∧ PositionIs s f.key detail) ∧
        (128 ≤ revisionDistance f.revision r.revision → outcome = 4 ∧ detail = r.revision.toNat))

/-- A POST SERVICE whose fields and revision pass is refused at the first place that fails, and changes nothing (R10, R89). -/
def Obligations.PostRefusedAtFirstBadPlace : Prop :=
  ∀ (h : Header) (f : PostFields) (s : State) (outcome detail : Nat), Listening s → ¬ PostOutOfRange f →
    f.key < 65536 → (∀ r ∈ findRecord f.key s.table.slots, Newer f.revision r.revision) →
    PlaceFailure s (postPlaces f) outcome detail →
    ∃ t, exec (.postService h f) s = .next t ∧ Answered kindPost h outcome detail s t ∧
      FramedAtRest [.results] s t

/-- POST SERVICE of an absent key creates the record in a free slot: every field from the message, +1 for each place it names, the
order recomputed and lines marked, DONE or ADJUSTED with its position (R8, R9, R11, R14; log entry 26 for ADJUSTED when the delay is
discarded). -/
def Obligations.PostCreatesRecord : Prop :=
  ∀ (h : Header) (f : PostFields) (s : State), Listening s → TableInv s → ¬ PostOutOfRange f → f.key < 65536 →
    findRecord f.key s.table.slots = none → (∀ p ∈ postPlaces f, PlaceUsable s p) → none ∈ s.table.slots →
    ∃ t new detail, exec (.postService h f) s = .next t ∧ PostedRecord f new ∧
      (∃ i : Nat, s.table.slots[i]? = some none ∧ Retabled (s.table.slots.set i (some new)) s t) ∧
      (∀ p < 1024, cellGet 0 t.dir.counts p = cellGet 0 s.dir.counts p + (postPlaces f).count p) ∧
      PositionIs t f.key detail ∧ (DelayOutside f.delay → Answered kindPost h 1 detail s t) ∧
      (¬ DelayOutside f.delay → Answered kindPost h 0 detail s t) ∧ QuietlyFramed tableParts s t

/-- POST SERVICE of an absent key on a full table: refused with TABLE_FULL and no sweep under a CLOSED window; under an OPEN
window the sweep is made at once, the record created in a slot it freed, or TABLE_FULL answered when it freed none, the window
closed either way (R11, R62; log entry 26 for ADJUSTED when the delay is discarded). -/
def Obligations.PostOnFullTable : Prop :=
  ∀ (h : Header) (f : PostFields) (s : State), Listening s → TableInv s → ¬ PostOutOfRange f → f.key < 65536 →
    findRecord f.key s.table.slots = none → (∀ p ∈ postPlaces f, PlaceUsable s p) → none ∉ s.table.slots →
    ∃ t, exec (.postService h f) s = .next t ∧
      (s.table.window = .closed → Answered kindPost h 2 96 s t ∧ FramedAtRest [.results] s t) ∧
      (s.table.window ≠ .closed → t.table.window = .closed ∧
        ((∀ r ∈ s.records, r.life = .live) → Answered kindPost h 2 96 s t ∧
          FramedAtRest [.results, .window] s t) ∧
        ((∃ r ∈ s.records, r.life ≠ .live) → ∃ new detail, PostedRecord f new ∧
          (∃ i : Nat, (sweptSlots s.table.slots)[i]? = some none ∧
            t.table.slots = (sweptSlots s.table.slots).set i (some new)) ∧
          t.table.order = runningOrder s.settings.filter t.table.slots ∧
          (∀ p < 1024, cellGet 0 t.dir.counts p +
              ((s.records.filter (fun r => !decide (r.life = .live))).flatMap referencesOf).count p
            = cellGet 0 s.dir.counts p + (postPlaces f).count p) ∧
          PositionIs t f.key detail ∧ (DelayOutside f.delay → Answered kindPost h 1 detail s t) ∧
          (¬ DelayOutside f.delay → Answered kindPost h 0 detail s t) ∧ QuietlyFramed (.window :: tableParts) s t))

/-- A newer POST SERVICE of a present key replaces every field in the record's own slot and, if it was LEAVING, revives it; the old
references are removed and the new added, and the window stands (R12, R13, R14, R63; log entry 26 for ADJUSTED when the delay is
discarded). -/
def Obligations.PostReplacesOrRevives : Prop :=
  ∀ (h : Header) (f : PostFields) (s : State) (r : Record), Listening s → TableInv s → ¬ PostOutOfRange f →
    f.key < 65536 → findRecord f.key s.table.slots = some r → Newer f.revision r.revision →
    (∀ p ∈ postPlaces f, PlaceUsable s p) →
    ∃ t new detail, exec (.postService h f) s = .next t ∧ PostedRecord f new ∧
      Retabled (replacedIn s.table.slots r new) s t ∧
      (∀ p < 1024, cellGet 0 t.dir.counts p + (referencesOf r).count p
        = cellGet 0 s.dir.counts p + (postPlaces f).count p) ∧
      PositionIs t f.key detail ∧ (DelayOutside f.delay → Answered kindPost h 1 detail s t) ∧
      (¬ DelayOutside f.delay → Answered kindPost h 0 detail s t) ∧ QuietlyFramed tableParts s t

/-! ### AMEND SERVICE -/

/-- AMEND SERVICE is refused in R15's and R16's order: its own fields, an absent key, a LEAVING record with its cause as detail, and
for a newer revision the two faults of content; a refusal changes nothing (R15, R16). -/
def Obligations.AmendRefused : Prop :=
  ∀ (h : Header) (f : AmendFields) (s : State), Listening s → f.key < 65536 →
    (AmendOutOfRange f → ∃ t, exec (.amendService h f) s = .next t ∧ Answered kindAmend h 6 0 s t ∧
      FramedAtRest [.results] s t) ∧
    (¬ AmendOutOfRange f → findRecord f.key s.table.slots = none → ∃ t, exec (.amendService h f) s = .next t ∧
      Answered kindAmend h 3 0 s t ∧ FramedAtRest [.results] s t) ∧
    (∀ r cause, ¬ AmendOutOfRange f → findRecord f.key s.table.slots = some r → r.life = .leaving cause →
      ∃ t, exec (.amendService h f) s = .next t ∧ FramedAtRest [.results] s t ∧
        Answered kindAmend h 5 (match cause with
          | .retired => 1
          | .timedOut => 2
          | .rolledOff => 3) s t) ∧
    (∀ r, ¬ AmendOutOfRange f → findRecord f.key s.table.slots = some r → r.life = .live →
      Newer f.revision r.revision → AmendContentFault f r →
      ∃ t, exec (.amendService h f) s = .next t ∧ Answered kindAmend h 6 0 s t ∧
        FramedAtRest [.results] s t)

/-- An applied AMEND SERVICE leaves the record as R17's table and R18 say, in its own slot, the references untouched, and answers
DONE or ADJUSTED with the position it then has (R8, R16, R17, R18). -/
def Obligations.AmendApplied : Prop :=
  ∀ (h : Header) (f : AmendFields) (s : State) (r : Record), Listening s → TableInv s → ¬ AmendOutOfRange f →
    f.key < 65536 → findRecord f.key s.table.slots = some r → r.life = .live → Newer f.revision r.revision →
    ¬ AmendContentFault f r →
    ∃ t new detail, exec (.amendService h f) s = .next t ∧ AmendedRecord f r new ∧
      Retabled (replacedIn s.table.slots r new) s t ∧ PositionIs t f.key detail ∧
      (DelayOutside f.delay → Answered kindAmend h 1 detail s t) ∧
      (¬ DelayOutside f.delay → Answered kindAmend h 0 detail s t) ∧
      QuietlyFramed [.slots, .order, .results] s t

/-! ### RETIRE SERVICE, CLEAR BOARD, the sweep -/

/-- RETIRE SERVICE: key 0 and an absent key are refused; a LEAVING record is left alone and answered DONE; a LIVE record becomes
LEAVING with cause RETIRED, opening or restarting the window, or with a window length of 0 is swept in the same event; the detail
is the number of LEAVING records after it (R19, R53, R55, R56, R57). -/
def Obligations.RetireService : Prop :=
  ∀ (h : Header) (key : Nat) (s : State), Listening s → TableInv s → key < 65536 →
    ∃ t, exec (.retireService h key) s = .next t ∧
      (key = 0 → Answered kindRetire h 6 0 s t ∧ FramedAtRest [.results] s t) ∧
      (key ≠ 0 → findRecord key s.table.slots = none → Answered kindRetire h 3 0 s t ∧
        FramedAtRest [.results] s t) ∧
      ∀ r, key ≠ 0 → findRecord key s.table.slots = some r →
        Answered kindRetire h 0 (t.records.filter (fun q => !decide (q.life = .live))).length s t ∧
        (r.life ≠ .live → FramedAtRest [.results] s t) ∧
        (r.life = .live → 0 < s.settings.sweepLength →
          Retabled (replacedIn s.table.slots r (leaving .retired r)) s t ∧
          t.table.window = windowAfterLeaving s ∧
          QuietlyFramed [.slots, .order, .window, .results] s t) ∧
        (r.life = .live → s.settings.sweepLength = 0 →
          t.table.slots = sweptSlots (replacedIn s.table.slots r (leaving .retired r)) ∧
          t.table.order = runningOrder s.settings.filter t.table.slots ∧ t.table.window = .closed ∧
          CountsSwept (replacedIn s.table.slots r (leaving .retired r)) s t ∧ QuietlyFramed (.window :: tableParts) s t)

/-- CLEAR BOARD removes every record, sets every count to 0 and closes the window with no sweep; the detail is the number removed,
and lines are marked from position 0 if the running order held any record (R20, R65). -/
def Obligations.ClearBoardEmptiesTable : Prop :=
  ∀ (h : Header) (s : State), Listening s → TableInv s →
    ∃ t, exec (.clearBoard h) s = .next t ∧ t.table.slots = List.replicate 96 none ∧ t.table.order = [] ∧
      t.table.window = .closed ∧ (∀ p, cellGet 0 t.dir.counts p = 0) ∧
      Answered kindClear h 0 s.records.length s t ∧
      Marked (if s.table.order = [] then [] else List.range (s.lines - 1)) s t ∧
      QuietlyFramed (.window :: tableParts) s t

/-- The expiry of an OPEN window: every LEAVING record is removed and its references released, the window closes, the order is
recomputed and lines are marked by the comparison of orders alone (R59, R60). -/
def Obligations.SweepAtExpiry : Prop :=
  ∀ s : State, Running s → TableInv s → s.table.window ≠ .closed →
    ∃ t, exec .sweepWindowExpiry s = .next t ∧ t.table.slots = sweptSlots s.table.slots ∧
      t.table.order = runningOrder s.settings.filter (sweptSlots s.table.slots) ∧ t.table.window = .closed ∧
      CountsSwept s.table.slots s t ∧ Marked (orderMarks s.geometry s.table.order t.table.order) s t ∧
      QuietlyFramed [.slots, .order, .window, .counts] s t

/-- An expiry that finds no LEAVING record removes nothing, sends no decrement, closes the window and marks no line (R61). -/
def Obligations.ExpiryWithNothingLeaving : Prop :=
  ∀ s : State, Running s → TableInv s → s.table.window ≠ .closed → (∀ r ∈ s.records, r.life = .live) →
    ∃ t, exec .sweepWindowExpiry s = .next t ∧ t.table.window = .closed ∧ Marked [] s t ∧
      FramedAtRest [.window] s t

/-- What R24 and R25 mark: from the first changed position's line through line L − 2, with line 1 when it is 0, and none from R on;
and lines 0 and 1 or line p + 1 for a shown record of which something the board shows has changed: scheduled time, state, delay,
platform, destination, via, stops, train length or lifecycle (R24, R25). -/
def Obligations.LinesOfAChange : Prop :=
  ∀ (code : Nat) (before after : List Nat) (line : Nat),
    (line ∈ orderMarks code before after ↔
      ∃ p, p < shownPositions code ∧ before[p]? ≠ after[p]? ∧ (∀ i < p, before[i]? = after[i]?) ∧
        line ≤ boardLines code - 2 ∧ (p = 0 ∨ p + 1 ≤ line)) ∧
    ∀ old new : List (Option Record),
      (line ∈ contentMarks code old new after ↔
        ∃ p key a b, p < shownPositions code ∧ after[p]? = some key ∧ findRecord key old = some a ∧
          findRecord key new = some b ∧ ShownDiffers a b ∧ ((p = 0 ∧ line ≤ 1) ∨ (p ≠ 0 ∧ line = p + 1)))

/-- The running order holds each visible record once, sorted by order key, then scheduled time, then key; the order key is the
scheduled time, plus the delay when the record is ESTIMATED with a delay above 0 (R4, R21, R22). -/
def Obligations.RunningOrderIsSorted : Prop :=
  (∀ r : Record, (∀ d, r.state = .estimated → r.delay = some d → 0 < d → orderKey r = r.scheduled + d) ∧
    ((r.state ≠ .estimated ∨ ∀ d ∈ r.delay, d ≤ 0) → orderKey r = r.scheduled)) ∧
  ∀ (filter : List Text) (slots : List (Option Record)), ((recordsOf slots).map Record.key).Nodup →
    ∃ l : List Record, runningOrder filter slots = l.map Record.key ∧
      (∀ r, r ∈ l ↔ r ∈ recordsOf slots ∧ (filter = [] ∨ r.platform ∈ filter)) ∧ l.Nodup ∧
      l.Pairwise (fun a b => orderKey a < orderKey b ∨ (orderKey a = orderKey b ∧
        (a.scheduled < b.scheduled ∨ (a.scheduled = b.scheduled ∧ a.key < b.key))))

/-! ### The reads -/

/-- The three reads: key 0 and a place above 1023 are refused, answered whatever the reply flag; every other read queues an entry
for its object or merges into the one queued, and changes nothing else (R27, R90, R177, R181, R183, R185). -/
def Obligations.ReadsAreQueuedOrMerged : Prop :=
  ∀ (h : Header) (n : Nat) (s : State), Listening s → n < 65536 →
    (∃ t, exec (.readService h n) s = .next t ∧ FramedAtRest [.results] s t ∧
      (n = 0 → Answered kindReadService { h with reply := true } 6 0 s t) ∧
      (n ≠ 0 → ReadQueued h.tag (.service n) s t)) ∧
    (∃ t, exec (.readPlace h n) s = .next t ∧ FramedAtRest [.results] s t ∧
      (1023 < n → Answered kindReadPlace { h with reply := true } 6 0 s t) ∧
      (n ≤ 1023 → ReadQueued h.tag (.place n) s t)) ∧
    ∃ t, exec (.readBoard h) s = .next t ∧ FramedAtRest [.results] s t ∧ ReadQueued h.tag .board s t

/-! ### Service time -/

/-- A minute event: nothing while time is invalid; else the minute advances, a forward passage of the origin ends a rollover hold or
rolls every record over, "now" is recomputed, the table ages against it, with a window length of 0 the sweep follows, and the clock
request is raised; marked are the departure lines and what R24 and R25 mark for each change of the table (R31, R32, R37, R39, R41,
R42, R44, R45, R57; log entry 13: a rebase changes the scheduled time, so R25 marks for it). -/
def Obligations.MinuteEventStages : Prop :=
  ∀ s : State, Running s → TableInv s → SettingsOK s.settings →
    ∃ t, exec .minuteEvent s = .next t ∧ (s.time.valid = false → FramedAtRest [] s t) ∧
      (s.time.valid = true →
        (t.time.minute = (s.time.minute + 1) % 1440 ∧ t.time.second = 0 ∧ t.time.milli = 0 ∧ t.time.valid = true ∧
          t.time.inconsistent = s.time.inconsistent ∧ t.time.freshness = s.time.freshness ∧
          t.time.freshTimer = s.time.freshTimer) ∧
        NowIs s.settings.origin t.time.minute t.time.rollHold t.time.now ∧
        (t.time.minute = s.settings.origin → t.time.rollHold = false ∧ StagesTaken (!s.time.rollHold) false s t) ∧
        (t.time.minute ≠ s.settings.origin → t.time.rollHold = s.time.rollHold ∧ StagesTaken false false s t) ∧
        FramedBy [.time, .slots, .order, .window, .counts] s t)

/-- A station time that a valid overhead record brings: none when unusable; taken at once, with the ageing, while time is invalid;
counted out or in by its distance while valid; and at the third inconsistency running a step event, forward for a distance of
at most 43200 s, with its passage of the origin and the marks of its stages (R33 to R37, R39 to R42, R44; log entry 13 for the marks
of a rebase, log entry 10 for the order in which a record's parts act, log entry 38 for a record given outside the lock). -/
def Obligations.StationTimeTaken : Prop :=
  ∀ (o1 o2 o3 o4 o5 : Octet) (s : State) (minute second : Nat), Listening s → TableInv s → SettingsOK s.settings →
    s.time.minute < 1440 → s.time.second < 60 → RecordGood o1 o2 o3 o4 o5 →
    minute = 256 * o1.data.toNat + o2.data.toNat → second = o3.data.toNat →
    ∃ t, exec (.overheadRecord o1 o2 o3 o4 o5) s = .next t ∧
      ((1440 ≤ minute ∨ 60 ≤ second) →
        t.time = ({ s.time with freshness := .fresh, freshTimer := 0 } : Timekeeper) ∧
        FramedBy [.feed, .time, .board, .callingScroll, .bannerScroll] s t) ∧
      (minute < 1440 → second < 60 → s.time.valid = false →
        t.time = ({ s.time with
          minute := minute, second := second, milli := 0, valid := true, inconsistent := 0
          now := t.time.now, freshness := .fresh, freshTimer := 0 } : Timekeeper) ∧
        NowIs s.settings.origin minute s.time.rollHold t.time.now ∧ StepStagesTaken false s t) ∧
      ∀ distance : Int, minute < 1440 → second < 60 → s.time.valid = true →
        distance = ((60 * minute + second : Int) - (60 * s.time.minute + s.time.second)) % 86400 →
        ((distance ≤ 1 ∨ distance = 86399) →
          t.time = ({ s.time with inconsistent := 0, freshness := .fresh, freshTimer := 0 } : Timekeeper) ∧
          FramedBy [.feed, .time, .board, .callingScroll, .bannerScroll] s t) ∧
        (1 < distance → distance ≠ 86399 → s.time.inconsistent < 2 →
          t.time = ({ s.time with inconsistent := s.time.inconsistent + 1, freshness := .fresh, freshTimer := 0 } : Timekeeper) ∧
          FramedBy [.feed, .time, .board, .callingScroll, .bannerScroll] s t) ∧
        (1 < distance → distance ≠ 86399 → 2 ≤ s.time.inconsistent →
          ∀ before after : Int, before = ((60 * s.time.minute + s.time.second : Int) - 60 * s.settings.origin) % 86400 →
            after = ((60 * minute + second : Int) - 60 * s.settings.origin) % 86400 →
            t.time = ({ s.time with
              minute := minute, second := second, milli := 0, inconsistent := 0
              rollHold := t.time.rollHold, now := t.time.now, freshness := .fresh, freshTimer := 0 } : Timekeeper) ∧
            NowIs s.settings.origin minute t.time.rollHold t.time.now ∧
            (distance ≤ 43200 → after < before → t.time.rollHold = false ∧ StepStagesTaken (!s.time.rollHold) s t) ∧
            (43200 < distance → before < after → t.time.rollHold = true ∧ StepStagesTaken false s t) ∧
            (distance ≤ 43200 → before ≤ after → t.time.rollHold = s.time.rollHold ∧ StepStagesTaken false s t) ∧
            (43200 < distance → after ≤ before → t.time.rollHold = s.time.rollHold ∧ StepStagesTaken false s t))

/-- The feed lapses: from FRESH the freshness becomes LAPSED with its timer at the limit, and the board state is that of the first
row of R154's table that applies; a change of board state repaints the board (R49, R154, R155). -/
def Obligations.FeedLapses : Prop :=
  ∀ s : State, Running s → BoardIs s.feed.station s.time.freshness s.time.valid s.board →
    ∃ t, exec .feedLapsed s = .next t ∧ (s.time.freshness = .lapsed → FramedAtRest [] s t) ∧
      (s.time.freshness = .fresh →
        t.time = ({ s.time with freshness := .lapsed, freshTimer := 60000 * s.settings.holdover } : Timekeeper) ∧
        BoardIs s.feed.station .lapsed s.time.valid t.board ∧
        (t.board = s.board → FramedAtRest [.time] s t) ∧
        (t.board ≠ s.board → BoardChanged s t ∧
          FramedBy [.time, .board, .callingScroll, .bannerScroll] s t))

/-! ### The feed line -/

/-- An overhead record: discarded unless its five octets are good and sum to 0; else it becomes the last record, the freshness
timer restarts, the station state is de-bounced, and the board state follows its inputs (R49, R154, R169, R170; log entry 38 for a
record given outside the lock). -/
def Obligations.OverheadRecordTaken : Prop :=
  ∀ (o1 o2 o3 o4 o5 : Octet) (s : State), Listening s → BoardIs s.feed.station s.time.freshness s.time.valid s.board →
    ∃ t, exec (.overheadRecord o1 o2 o3 o4 o5) s = .next t ∧
      (¬ RecordGood o1 o2 o3 o4 o5 → FramedAtRest [] s t) ∧
      (RecordGood o1 o2 o3 o4 o5 →
        t.feed = ({ s.feed with
          lastRecord := some { minute := 256 * o1.data.toNat + o2.data.toNat, second := o3.data.toNat, state := o4.data }
          candidate := t.feed.candidate, station := t.feed.station } : FeedReceiver) ∧
        StationDebounced o4.data s t ∧ t.time.freshness = .fresh ∧ t.time.freshTimer = 0 ∧
        BoardIs t.feed.station .fresh t.time.valid t.board ∧
        FramedBy [.feed, .time, .board, .slots, .order, .window, .counts, .callingScroll, .bannerScroll] s t)

/-- An octet in HUNTING and CONFIRMING: the span grows to 64 octets and is judged by its qualifying positions and the mimic check; a
candidate is waited for, and confirms the alignment or is dropped (R164, R165). -/
def Obligations.AlignmentSought : Prop :=
  ∀ (c : Instr) (o : Octet) (s : State), Listening s → Delivers c o s →
    ∃ t, exec c s = .next t ∧
      (∀ span, s.feed.alignment = .hunting span → FramedAtRest [.feed] s t ∧
        (span.length < 63 → t.feed = ({ s.feed with started := true, alignment := .hunting (span ++ [o]) } : FeedReceiver)) ∧
        (63 ≤ span.length →
          (∀ p a, SpanYields s.settings.mimicCheck (span ++ [o]) p → (span ++ [o])[p]? = some a →
            t.feed = ({ s.feed with started := true, alignment := .confirming p a.data } : FeedReceiver)) ∧
          ((∀ p, ¬ SpanYields s.settings.mimicCheck (span ++ [o]) p) →
            t.feed = ({ s.feed with started := true, alignment := .hunting [] } : FeedReceiver)))) ∧
      (∀ skip pattern, s.feed.alignment = .confirming (skip + 1) pattern → FramedAtRest [.feed] s t ∧
        t.feed = ({ s.feed with started := true, alignment := .confirming skip pattern } : FeedReceiver)) ∧
      (∀ pattern, s.feed.alignment = .confirming 0 pattern → FramedAtRest [.feed] s t ∧
        (GoodOctet o pattern → ∃ even, (even = true ↔ pattern = 0x1B) ∧
          t.feed = ({ s.feed with
            started := true, alignment := .aligned 1 even [], position := none, sighting := none, gathered := [] } : FeedReceiver)) ∧
        (¬ GoodOctet o pattern → t.feed = ({ s.feed with started := true, alignment := .hunting [] } : FeedReceiver)))

/-- The alignment octet of an ALIGNED frame: its error is remembered; the second error within the alignment window loses alignment,
counted to 65535, and with it the superframe, the candidate and any message being reassembled, which counts bad. Before the first octet
since the release no octet is missing (R161, R163, R166, R168, R170, R176; log entry 36). -/
def Obligations.AlignmentKeptOrLost : Prop :=
  (∀ s : State, Listening s → s.feed.started = false → ∃ t, exec .missingOctet s = .next t ∧ FramedAtRest [] s t) ∧
  ∀ (c : Instr) (o : Octet) (s : State) (even : Bool) (marks seen : List Bool), Listening s → Delivers c o s →
    s.feed.alignment = .aligned 0 even marks → (∃ mark, seen = (mark :: marks).take 6 ∧
      (mark = false ↔ GoodOctet o (framePattern even))) →
    ∃ t, exec c s = .next t ∧
      (((seen.take s.settings.alignWindow).count true < 2) →
        t.feed = ({ s.feed with started := true, alignment := .aligned 1 even seen } : FeedReceiver) ∧ FramedAtRest [.feed] s t) ∧
      (2 ≤ (seen.take s.settings.alignWindow).count true →
        t.feed = ({ s.feed with
          started := true, alignment := .hunting [], position := none, sighting := none, gathered := []
          candidate := none, lossCount := min (s.feed.lossCount + 1) 65535 } : FeedReceiver) ∧
        (s.unpacker.state = .searching → t.unpacker = s.unpacker) ∧
        (s.unpacker.state ≠ .searching → t.unpacker = badMessage s.unpacker) ∧
        FramedAtRest [.feed, .unpacker] s t)

/-- The overhead octet of an ALIGNED frame: the superframe position is found by two markers six frames apart, kept by a marker each
sixth frame and lost without it; the five octets between are gathered, and the fifth hands them over as an overhead record (R168,
R169; log entry 32: the position moves at the overhead octet, so before it stands the position of the frame before). -/
def Obligations.SuperframeFollowed : Prop :=
  ∀ (c : Instr) (o : Octet) (s : State) (even : Bool) (marks : List Bool), Listening s → Delivers c o s →
    s.feed.alignment = .aligned 1 even marks →
    ∃ t, exec c s = .next t ∧
      (s.feed.position = none → FramedAtRest [.feed] s t ∧
        (even = true → GoodOctet o 0xA5 → s.feed.sighting = some 5 →
          t.feed = ({ s.feed with
            started := true, alignment := .aligned 2 even marks, position := some 0, sighting := none, gathered := [] } : FeedReceiver)) ∧
        (even = true → GoodOctet o 0xA5 → s.feed.sighting ≠ some 5 →
          t.feed = ({ s.feed with started := true, alignment := .aligned 2 even marks, sighting := some 0 } : FeedReceiver)) ∧
        (¬ (even = true ∧ GoodOctet o 0xA5) →
          t.feed = ({ s.feed with started := true, alignment := .aligned 2 even marks, sighting := s.feed.sighting.map (· + 1) } : FeedReceiver))) ∧
      (s.feed.position = some 5 → FramedAtRest [.feed] s t ∧
        (GoodOctet o 0xA5 → t.feed = ({ s.feed with
          started := true, alignment := .aligned 2 even marks, position := some 0, gathered := [] } : FeedReceiver)) ∧
        (¬ GoodOctet o 0xA5 → t.feed = ({ s.feed with
          started := true, alignment := .aligned 2 even marks, position := none, sighting := none, gathered := [], candidate := none } : FeedReceiver))) ∧
      (∀ p, s.feed.position = some p → p < 4 → FramedAtRest [.feed] s t ∧
        t.feed = ({ s.feed with
          started := true, alignment := .aligned 2 even marks, position := some (p + 1), gathered := s.feed.gathered ++ [o] } : FeedReceiver)) ∧
      ∀ o1 o2 o3 o4, s.feed.position = some 4 → s.feed.gathered = [o1, o2, o3, o4] →
        exec c s = exec (.overheadRecord o1 o2 o3 o4 o) (s.withFeed { s.feed with
          started := true, alignment := .aligned 2 even marks, position := some 5, gathered := [o1, o2, o3, o4, o] })

/-- A payload octet that does not complete a good message: ignored until a marker, then the length, then the body; one that finds
the message bad (its length, a stop-bit error, or a CRC that does not match) counts it. When none of the octets held after its marker
is a marker the unpacker is left SEARCHING; in every case the octets held act, in the same event, as though newly taken one after
another (R167, R174, R175; log entry 35). -/
def Obligations.PayloadUnpacked : Prop :=
  ∀ (c : Instr) (o : Octet) (s : State) (k : Nat) (even : Bool) (marks : List Bool), Listening s →
    Delivers c o s → s.feed.alignment = .aligned k even marks → 2 ≤ k → k ≤ 31 →
    (∀ u : Unpacker,
      ((s.unpacker.state = .searching ∧ ¬ GoodOctet o 0xC3 ∧ u = s.unpacker) ∨
        (s.unpacker.state = .searching ∧ GoodOctet o 0xC3 ∧
          u = { s.unpacker with state := .length, buffer := [o] }) ∨
        (s.unpacker.state = .length ∧ o.stopError = false ∧ 5 ≤ o.data.toNat ∧ o.data.toNat ≤ 250 ∧
          u = { s.unpacker with state := .body o.data.toNat, buffer := s.unpacker.buffer ++ [o] }) ∨
        (∃ n, s.unpacker.state = .body n ∧ 1 < n ∧ o.stopError = false ∧
          u = { s.unpacker with state := .body (n - 1), buffer := s.unpacker.buffer ++ [o] }) ∨
        (FoundBad s.unpacker o ∧ (∀ x ∈ (s.unpacker.buffer ++ [o]).drop 1, ¬ GoodOctet x 0xC3) ∧
          u = badMessage s.unpacker)) →
      ∃ t, exec c s = .next t ∧ t.unpacker = u ∧
        t.feed = ({ s.feed with started := true, alignment := afterOctet k even marks } : FeedReceiver) ∧
        FramedAtRest [.feed, .unpacker] s t) ∧
    (FoundBad s.unpacker o → s.unpacker.buffer.length ≤ 251 → Settled s →
      ∃ t, TakenAnew ((s.unpacker.buffer ++ [o]).drop 1)
          ((s.withFeed { s.feed with started := true }).withUnpacker (badMessage s.unpacker)) t ∧
        exec c s = .next (t.withFeed { t.feed with alignment := afterOctet k even marks }))

/-- The octet that completes a message whose CRC matches: a kind that is not in the table is answered UNKNOWN_KIND; a message that
fails the structure check OUT_OF_RANGE, a read whatever its flag; and a message whose parameters stand as R179 writes them has exactly
the effect of its command, whose owner answers it (R174, R175, R177 to R180; log entry 8). What fails the structure check is said by
ParametersReadBack. -/
def Obligations.GoodMessageRunsItsCommand : Prop :=
  ∀ (c : Instr) (o : Octet) (s s' : State) (k : Nat) (even : Bool) (marks : List Bool) (len kind tag flags : Byte)
    (params : List Byte), Listening s → Delivers c o s → s.feed.alignment = .aligned k even marks → 2 ≤ k → k ≤ 31 →
    s.unpacker.state = .body 1 → o.stopError = false → len.toNat = params.length + 5 →
    s.unpacker.buffer.map Octet.data ++ [o.data] =
      0xC3 :: len :: kind :: tag :: flags :: (params ++ crcOctets (len :: kind :: tag :: flags :: params)) →
    s' = (s.withFeed { s.feed with started := true, alignment := afterOctet k even marks }).withUnpacker
      { s.unpacker with state := .searching, buffer := [] } →
    (∀ m : Message, kind = m.kind → params = m.octets → wellFormed (m.command { tag := tag, reply := flags.getLsbD 0 }) = true →
      exec c s = exec (m.command { tag := tag, reply := flags.getLsbD 0 }) s') ∧
    (kind ∉ ([0x01, 0x02, 0x03, 0x04, 0x05, 0x06, 0x07, 0x08, 0x10, 0x11, 0x12, 0x13, 0x14, 0x15, 0x20, 0x21, 0x22, 0x30,
        0x31] : List Byte) →
      ∃ t, exec c s = .next t ∧ Answered kind { tag := tag, reply := flags.getLsbD 0 } 20 0 s' t ∧
        FramedAtRest [.feed, .unpacker, .results] s t) ∧
    ∀ read, kindReader kind = some read → read params = none →
      ∃ t, exec c s = .next t ∧ FramedAtRest [.feed, .unpacker, .results] s t ∧
        Answered kind { tag := tag, reply := flags.getLsbD 0 || decide (kind ∈ ([0x20, 0x21, 0x22] : List Byte)) } 6 0 s' t

/-- Every message reads back from its octets: for each kind the structure check accepts the parameters written by R179's and R186's
encodings and reads every field as it was. It refuses parameters that end too soon, that leave octets over, or whose presence mask sets
a bit that names no field (R177, R179, R186). -/
def Obligations.ParametersReadBack : Prop :=
  (∀ (m : Message) (h : Header), wellFormed (m.command h) = true →
    ∃ read, kindReader m.kind = some read ∧ read m.octets = some m ∧
      (∀ n < m.octets.length, read (m.octets.take n) = none) ∧ ∀ extra, extra ≠ [] → read (m.octets ++ extra) = none) ∧
  ∀ (kind : Byte) (read : List Byte → Option Message) (mask : Byte) (rest : List Byte), kindReader kind = some read →
    ((kind = 0x01 ∧ 8 ≤ mask.toNat) ∨ (kind = 0x02 ∧ 64 ≤ mask.toNat) ∨ (kind = 0x10 ∧ 2 ≤ mask.toNat) ∨
      (kind = 0x30 ∧ 16 ≤ mask.toNat)) → read (mask :: rest) = none

/-! ### The Place Directory -/

/-- WRITE PLACE is refused in R76's order: its own fields, the operation state, a sector of the erase set while SUSPENDED, a locked
sector, a slot that is not BLANK; the last two abandon a gather, whose joined messages are answered ERASE_ABANDONED before it (R75,
R76, R80, R86; log entry 40 for the order among them). -/
def Obligations.WritePlaceRefused : Prop :=
  ∀ (h : Header) (f : WriteFields) (s : State), Listening s →
    ∃ t, exec (.writePlace h f) s = .next t ∧
      (WriteOutOfRange f → Answered kindWrite h 6 0 s t ∧ FramedAtRest [.results] s t) ∧
      (¬ WriteOutOfRange f → OpBusy s.dir.op → Answered kindWrite h 9 0 s t ∧
        FramedAtRest [.results] s t) ∧
      (∀ e c cause, ¬ WriteOutOfRange f → s.dir.op = .suspended e c cause → sectorOf f.place ∈ e.set →
        Answered kindWrite h 8 (sectorOf f.place) s t ∧ FramedAtRest [.results] s t) ∧
      ∀ outcome detail, ¬ WriteOutOfRange f →
        ((sectorOf f.place ∈ s.dir.locks ∧ outcome = 10 ∧ detail = sectorOf f.place) ∨
          (sectorOf f.place ∉ s.dir.locks ∧ slotState s.dir f.place ≠ .blank ∧ outcome = 11 ∧
            detail = slotStateCode (slotState s.dir f.place))) →
        ((s.dir.op = .ready ∨ ∃ e c cause, s.dir.op = .suspended e c cause ∧ sectorOf f.place ∉ e.set) →
          Answered kindWrite h outcome detail s t ∧ FramedAtRest [.results] s t) ∧
        (∀ e window, s.dir.op = .gathering e window → ∃ mask, MaskIs e.set mask ∧
          Entered (answersOf kindErase e.joined 13 mask ++ answersOf kindWrite [h] outcome detail) s t ∧
          t.dir.op = .ready ∧ SameBut (([.results, .dirOp] : List Part) ++ grantParts) s t)

/-- WRITE PLACE to a BLANK slot of an unlocked sector starts the write: the slot becomes WRITING with its write-begun mark set and
its content in storage, the directory WRITING or SUSPENDED_WRITING, and no answer is given yet; from GATHERING the erase is abandoned
and its joined messages answered (R69, R76, R80, R86; log entry 16 for the content in storage at the start, log entry 40 for
the order of those answers). -/
def Obligations.WritePlaceStarts : Prop :=
  ∀ (h : Header) (f : WriteFields) (s : State), Listening s → s.dir.wf = true → ¬ WriteOutOfRange f →
    sectorOf f.place ∉ s.dir.locks → slotState s.dir f.place = .blank →
    (s.dir.op = .ready ∨ (∃ e window, s.dir.op = .gathering e window) ∨
      ∃ e c cause, s.dir.op = .suspended e c cause ∧ sectorOf f.place ∉ e.set) →
    ∃ t, exec (.writePlace h f) s = .next t ∧
      SlotBecomes f.place { entry := some f.entry, begun := true, complete := false } .writing s t ∧
      (s.dir.op = .ready → t.dir.op = .writing { place := f.place, header := h } ∧ t.results = s.results) ∧
      (∀ e window, s.dir.op = .gathering e window → t.dir.op = .writing { place := f.place, header := h } ∧
        ∃ mask, MaskIs e.set mask ∧ Entered (answersOf kindErase e.joined 13 mask) s t) ∧
      (∀ e c cause, s.dir.op = .suspended e c cause →
        t.dir.op = .suspendedWriting e c cause { place := f.place, header := h } ∧ t.results = s.results) ∧
      SameBut (([.storage, .slotStates, .dirOp, .results] : List Part) ++ grantParts) s t

/-- A write completes: its slot becomes VALID with its write-complete mark set, or DEFECTIVE, and the message is answered with its
place; the directory returns to READY, or to SUSPENDED, from which a suspension of cause PAINT whose request no longer stands is
resumed in the same event (R77, R86, R87; log entry 16: a slot whose write failed keeps its entry in storage). -/
def Obligations.WriteCompletes : Prop :=
  ∀ (verified : Bool) (s : State) (w : WriteRun), Running s → s.dir.wf = true →
    (s.dir.op = .writing w ∨ ∃ e c cause, s.dir.op = .suspendedWriting e c cause w) →
    ∃ t, exec (.writeComplete verified) s = .next t ∧
      SlotBecomes w.place { cellGet StoredSlot.erased s.dir.storage w.place with complete := verified }
        (if verified then .valid else .defective) s t ∧
      Answered kindWrite w.header (if verified then 0 else 14) w.place s t ∧
      (s.dir.op = .writing w → DirSettled .ready s.dir.eraseMarks t) ∧
      (∀ e c, s.dir.op = .suspendedWriting e c .commanded w →
        DirSettled (.suspended e c .commanded) s.dir.eraseMarks t) ∧
      (∀ e c, s.dir.op = .suspendedWriting e c .paint w →
        (s.paint.suspendRequest = true → s.settings.autoSuspend = true →
          DirSettled (.suspended e c .paint) s.dir.eraseMarks t) ∧
        (¬ (s.paint.suspendRequest = true ∧ s.settings.autoSuspend = true) →
          DirSettled (.erasing e { c with begun := true }) (setInsert c.sector s.dir.eraseMarks) t)) ∧
      SameBut (([.storage, .slotStates, .results] : List Part) ++ arbiterParts) s t

/-- ERASE SECTOR: refused for its range, the operation state, a lock, or the lowest place in use; else it joins the gather, adding its
sector and opening or restarting the 40 ms window unless the sector is already in the set; the seventeenth is DIRECTORY_BUSY (R75,
R78, R79). -/
def Obligations.EraseSectorJoins : Prop :=
  ∀ (h : Header) (sector : Nat) (s : State), Listening s → s.dir.wf = true → sector < 256 →
    ∃ t, exec (.eraseSector h sector) s = .next t ∧
      (7 < sector → Answered kindErase h 6 0 s t ∧ FramedAtRest [.results] s t) ∧
      (sector ≤ 7 → (OpBusy s.dir.op ∨ ∃ e c cause, s.dir.op = .suspended e c cause) →
        Answered kindErase h 9 0 s t ∧ FramedAtRest [.results] s t) ∧
      ∀ e window, sector ≤ 7 → (s.dir.op = .gathering e window ∨
          (s.dir.op = .ready ∧ e = { set := [], joined := [], erased := [] })) →
        (sector ∈ s.dir.locks → Answered kindErase h 10 sector s t ∧ FramedAtRest [.results] s t) ∧
        (∀ p, sector ∉ s.dir.locks → sectorOf p = sector → 0 < cellGet 0 s.dir.counts p →
          (∀ q < p, sectorOf q = sector → cellGet 0 s.dir.counts q = 0) →
          Answered kindErase h 12 p s t ∧ FramedAtRest [.results] s t) ∧
        (sector ∉ s.dir.locks → (∀ p, sectorOf p = sector → cellGet 0 s.dir.counts p = 0) →
          (16 ≤ e.joined.length → Answered kindErase h 9 0 s t ∧ FramedAtRest [.results] s t) ∧
          (e.joined.length < 16 → ∃ e' window', t.dir.op = .gathering e' window' ∧ e'.joined = e.joined ++ [h] ∧
            e'.erased = e.erased ∧ (sector ∈ e.set → e'.set = e.set ∧ window' = window) ∧
            (sector ∉ e.set → window' = 40 ∧ (∀ a, a ∈ e'.set ↔ a = sector ∨ a ∈ e.set) ∧
              (e.set.Pairwise (· < ·) → e'.set.Pairwise (· < ·))) ∧
            SameBut (.dirOp :: grantParts) s t))

/-- An erase runs sector by sector, lowest first: the gather's expiry begins the lowest with 300 ms ahead and its erase-begun mark
set; a sector's end blanks its slots, clears its mark and moves on, or ends the erase with the joined messages answered DONE and every
merged SUSPEND ERASE NOT_SUSPENDED; a raised paint request may suspend what has begun (R81, R82, R84, R87; log entry 39
for the order of the merged messages). -/
def Obligations.EraseRunsSectorBySector : Prop :=
  (∀ (s : State) (e : EraseJob) (window a : Nat) (rest : List Nat), Running s → s.dir.op = .gathering e window →
    e.set = a :: rest → ∃ t, exec .gatherWindowExpiry s = .next t ∧
      DirSettled (.erasing e (firstOf a true)) (setInsert a s.dir.eraseMarks) t ∧ SameBut arbiterParts s t) ∧
  ∀ (s : State) (e : EraseJob) (c : Current), Running s → s.dir.wf = true →
    (s.dir.op = .erasing e c ∨ (c.begun = true ∧ ∃ cause merged, s.dir.op = .suspending e c cause merged)) →
    ∃ t e', exec .sectorEraseComplete s = .next t ∧ SectorErased c.sector s t ∧ ErasedOne e e' c.sector ∧
      (s.dir.op = .erasing e c →
        (e'.set = [] → ∃ mask, MaskIs e'.erased mask ∧ Entered (answersOf kindErase e.joined 0 mask) s t ∧
          DirSettled .ready (s.dir.eraseMarks.filter (fun a => a ≠ c.sector)) t) ∧
        (∀ a rest, e'.set = a :: rest → t.results = s.results ∧
          DirSettled (.erasing e' (firstOf a true))
            (setInsert a (s.dir.eraseMarks.filter (fun a => a ≠ c.sector))) t)) ∧
      (∀ cause merged, s.dir.op = .suspending e c cause merged →
        (e'.set = [] → ∃ mask, MaskIs e'.erased mask ∧
          Entered (answersOf kindErase e.joined 0 mask ++ answersOf kindSuspend merged 15 0) s t ∧
          DirSettled .ready (s.dir.eraseMarks.filter (fun a => a ≠ c.sector)) t) ∧
        (∀ a rest, e'.set = a :: rest → t.results = s.results ∧
          DirSettled (.suspending e' (firstOf a false) cause merged)
            (s.dir.eraseMarks.filter (fun a => a ≠ c.sector)) t)) ∧
      SameBut (([.storage, .slotStates, .results] : List Part) ++ arbiterParts) s t

/-- SUSPEND ERASE, row by row of R83's table. -/
def Obligations.SuspendEraseByState : Prop :=
  ∀ (h : Header) (s : State), Listening s →
    ∃ t, exec (.suspendErase h) s = .next t ∧ SameBut (([.dirOp, .results] : List Part) ++ grantParts) s t ∧
      (∀ e c, s.dir.op = .erasing e c → t.dir.op = .suspending e c .commanded [h] ∧ t.results = s.results) ∧
      (∀ e c cause merged, s.dir.op = .suspending e c cause merged →
        t.dir.op = .suspending e c .commanded (merged ++ [h]) ∧ t.results = s.results) ∧
      (∀ e c cause, s.dir.op = .suspended e c cause → t.dir.op = .suspended e c .commanded ∧
        Answered kindSuspend h 0 c.remaining s t) ∧
      (∀ e c cause w, s.dir.op = .suspendedWriting e c cause w → t.dir.op = .suspendedWriting e c .commanded w ∧
        Answered kindSuspend h 0 c.remaining s t) ∧
      (∀ e window a rest, s.dir.op = .gathering e window → e.set = a :: rest →
        t.dir.op = .suspended e (firstOf a false) .commanded ∧ Answered kindSuspend h 0 300 s t) ∧
      ((s.dir.op = .ready ∨ (∃ w, s.dir.op = .writing w) ∨ ∃ l, s.dir.op = .locking l) →
        t.dir.op = s.dir.op ∧ Answered kindSuspend h 15 0 s t) ∧
      (s.dir.op = .scanning → t.dir.op = .scanning ∧ Answered kindSuspend h 9 0 s t)

/-- A suspension completes with its merged messages answered the time remaining, one of cause PAINT whose request no longer stands
being resumed at once; RESUME ERASE resumes a commanded suspension and is refused in every other state (R84, R85, R87; log entry
39 for the order of the merged messages). -/
def Obligations.SuspensionEndsAndResumes : Prop :=
  (∀ (s : State) (e : EraseJob) (c : Current) (cause : SuspendCause) (merged : List Header), Running s →
    s.dir.op = .suspending e c cause merged →
    ∃ t, exec .suspensionComplete s = .next t ∧ Entered (answersOf kindSuspend merged 0 c.remaining) s t ∧
      (cause = .commanded → DirSettled (.suspended e c .commanded) s.dir.eraseMarks t) ∧
      (cause = .paint → s.paint.suspendRequest = true → s.settings.autoSuspend = true →
        DirSettled (.suspended e c .paint) s.dir.eraseMarks t) ∧
      (cause = .paint → ¬ (s.paint.suspendRequest = true ∧ s.settings.autoSuspend = true) →
        DirSettled (.erasing e { c with begun := true }) (setInsert c.sector s.dir.eraseMarks) t) ∧
      SameBut (.results :: arbiterParts) s t) ∧
  ∀ (h : Header) (s : State), Listening s →
    ∃ t, exec (.resumeErase h) s = .next t ∧ SameBut (.results :: arbiterParts) s t ∧
      (∀ e c, s.dir.op = .suspended e c .commanded → Answered kindResume h 0 0 s t ∧
        DirSettled (.erasing e { c with begun := true }) (setInsert c.sector s.dir.eraseMarks) t) ∧
      ((s.dir.op = .ready ∨ (∃ w, s.dir.op = .writing w) ∨ (∃ l, s.dir.op = .locking l) ∨
          (∃ e window, s.dir.op = .gathering e window) ∨ (∃ e c, s.dir.op = .erasing e c) ∨
          (∃ e c, s.dir.op = .suspended e c .paint) ∨ ∃ e c w, s.dir.op = .suspendedWriting e c .paint w) →
        Answered kindResume h 15 0 s t ∧ DirSettled s.dir.op s.dir.eraseMarks t) ∧
      ((s.dir.op = .scanning ∨ (∃ e c cause merged, s.dir.op = .suspending e c cause merged) ∨
          ∃ e c w, s.dir.op = .suspendedWriting e c .commanded w) →
        Answered kindResume h 9 0 s t ∧ DirSettled s.dir.op s.dir.eraseMarks t)

/-- LOCK SECTORS and FREE SECTORS: refused for an empty set, FREE without the staff key, then for the operation state; else the
change starts toward the new set, abandoning a gather; after 5 ms storage and RAM take the set and the message is answered with it
(R73, R74, R80; log entry 40 for the order of the abandoned messages' answers). -/
def Obligations.LocksChange : Prop :=
  (∀ (c : Instr) (kind : Byte) (h : Header) (sectors : Byte) (s : State) (free : Bool), Listening s →
    ((c = .lockSectors h sectors ∧ kind = kindLock ∧ free = false) ∨
      (c = .freeSectors h sectors ∧ kind = kindFree ∧ free = true)) →
    ∃ t, exec c s = .next t ∧
      (sectors = 0 → Answered kind h 6 0 s t ∧ FramedAtRest [.results] s t) ∧
      (sectors ≠ 0 → free = true → s.key.asserted = false → Answered kind h 16 0 s t ∧
        FramedAtRest [.results] s t) ∧
      (sectors ≠ 0 → (free = true → s.key.asserted = true) →
        ((OpBusy s.dir.op ∨ ∃ e c cause, s.dir.op = .suspended e c cause) → Answered kind h 9 0 s t ∧
          FramedAtRest [.results] s t) ∧
        ((s.dir.op = .ready ∨ ∃ e window, s.dir.op = .gathering e window) →
          ∃ l, t.dir.op = .locking l ∧ l.kind = kind ∧ l.header = h ∧ l.remaining = 5 ∧
            (∀ a < 8, a ∈ l.target ↔ if sectors.getLsbD a then free = false else a ∈ s.dir.locks) ∧
            (s.dir.op = .ready → t.results = s.results) ∧
            (∀ e window, s.dir.op = .gathering e window → ∃ mask, MaskIs e.set mask ∧
              Entered (answersOf kindErase e.joined 13 mask) s t) ∧
            SameBut (([.dirOp, .results] : List Part) ++ grantParts) s t))) ∧
  ∀ (s : State) (l : LockRun), Running s → s.dir.op = .locking l →
    ∃ t mask, exec .lockChangeComplete s = .next t ∧ t.dir.locks = l.target ∧ t.dir.lockFlags = l.target ∧
      t.dir.op = .ready ∧ MaskIs l.target mask ∧ Answered l.kind l.header 0 mask s t ∧
      SameBut (([.locks, .lockFlags, .dirOp, .results] : List Part) ++ grantParts) s t

/-- The scan sets every slot from its marks, DEFECTIVE throughout a sector whose erase-begun mark is set, loads the lock flags,
leaves READY and releases a held Feed Receiver into HUNTING (R93, R94, R163; log entry 41: the flags are loaded at the scan's end). -/
def Obligations.ScanSetsSlots : Prop :=
  ∀ s : State, Running s → s.dir.wf = true → (∀ a ∈ s.dir.eraseMarks, a < 8) → s.dir.op = .scanning →
    ∃ t, exec .scanEnd s = .next t ∧ t.dir.op = .ready ∧ t.dir.locks = s.dir.lockFlags ∧
      (∀ (p : Nat) (slot : StoredSlot), p < 1024 → slot = cellGet StoredSlot.erased s.dir.storage p →
        (sectorOf p ∈ s.dir.eraseMarks → slotState t.dir p = .defective) ∧
        (sectorOf p ∉ s.dir.eraseMarks →
          (slot.begun = false → slot.complete = false → slotState t.dir p = .blank) ∧
          (slot.begun = true → slot.complete = true → (∃ e ∈ slot.entry, EntryInRange e) →
            slotState t.dir p = .valid) ∧
          ((slot.begun = true ∨ slot.complete = true) →
            ¬ (slot.begun = true ∧ slot.complete = true ∧ ∃ e ∈ slot.entry, EntryInRange e) →
            slotState t.dir p = .defective))) ∧
      (s.feed.held = true → t.feed = ({ s.feed with held := false, alignment := .hunting [] } : FeedReceiver)) ∧
      (s.feed.held = false → t.feed = s.feed) ∧ SameBut (([.slotStates, .locks, .dirOp, .feed] : List Part) ++ grantParts) s t

/-! ### The Paint Engine -/

/-- HOLD BOARD holds for the limit in force; RELEASE BOARD frees, answered DONE, HOLD_LAPSED or NOT_HELD with the number of dirty
lines; the timer's end makes a hold LAPSED (R141, R142, R143). -/
def Obligations.HoldTakenReleasedLapsed : Prop :=
  (∀ (h : Header) (s : State), Listening s →
    (∃ t, exec (.holdBoard h) s = .next t ∧ t.paint.hold = .held (1000 * s.settings.holdLimit) ∧
      Answered kindHold h 0 s.settings.holdLimit s t ∧ QuietlyFramed [.hold, .results] s t) ∧
    ∃ t, exec (.releaseBoard h) s = .next t ∧ t.paint.hold = .free ∧
      ((∃ r, s.paint.hold = .held r) → Answered kindRelease h 0 s.paint.dirty.length s t) ∧
      (s.paint.hold = .lapsed → Answered kindRelease h 18 s.paint.dirty.length s t) ∧
      (s.paint.hold = .free → Answered kindRelease h 17 s.paint.dirty.length s t) ∧
      QuietlyFramed [.hold, .results] s t) ∧
  ∀ s : State, Running s → ∃ t, exec .holdLapse s = .next t ∧
    ((∃ r, s.paint.hold = .held r) → t.paint.hold = .lapsed) ∧
    ((¬ ∃ r, s.paint.hold = .held r) → t.paint.hold = s.paint.hold) ∧ QuietlyFramed [.hold] s t

/-- SET BANNER: refused for its text or duration; else the record is replaced, its scroll stops, the line the board state gives it
passes to it and its compose is raised, and the answer carries its width (R125, R137, R138, R140). -/
def Obligations.BannerSet : Prop :=
  ∀ (h : Header) (f : BannerFields) (s : State), Listening s →
    ∃ t, exec (.setBanner h f) s = .next t ∧
      ((¬ GlyphText 160 f.text ∨ 3600 < f.duration) → Answered kindSetBanner h 6 0 s t ∧
        FramedAtRest [.results] s t) ∧
      (GlyphText 160 f.text → f.duration ≤ 3600 →
        t.paint.banner = some {
          text := f.text, width := textWidth .large f.text
          remaining := if f.duration = 0 then none else some (1000 * f.duration) } ∧
        t.paint.bannerScroll = .still ∧ t.paint.bannerStep = false ∧
        (s.board = .showing → bannerLine t = some (s.lines - 1)) ∧ (s.board = .alert → bannerLine t = some 1) ∧
        (s.board ≠ .showing → s.board ≠ .alert → bannerLine t = none) ∧
        (bannerLine t ≠ none → ComposeRaised s t) ∧ (bannerLine t = none → t.paint.bannerCompose = false) ∧
        (s.board = .alert → s.paint.banner = none → t.paint.callingScroll = .still ∧ t.paint.callingStep = false) ∧
        ((s.board ≠ .alert ∨ s.paint.banner ≠ none) → t.paint.callingScroll = s.paint.callingScroll) ∧
        Answered kindSetBanner h 0 (textWidth .large f.text) s t ∧
        FramedBy [.banner, .bannerScroll, .callingScroll, .results] s t)

/-- CLEAR BANNER and the duration's end remove the banner: its scroll stops, its requests are cleared, its line is handed back (the
clock raised, or line 1 marked) and a banner job that runs places nothing; CLEAR BANNER answers 1 when there was one (R139). -/
def Obligations.BannerRemoved : Prop :=
  ∀ (h : Header) (s : State) (c : Instr), (c = .clearBanner h ∨ c = .bannerExpiry) →
    (c = .clearBanner h → Listening s) → Running s →
    ∃ t, exec c s = .next t ∧
      (c = .clearBanner h → Answered kindClearBanner h 0 (if s.paint.banner = none then 0 else 1) s t) ∧
      (c = .bannerExpiry → t.results = s.results) ∧
      (s.paint.banner = none → FramedAtRest [.results] s t) ∧
      (∀ b, s.paint.banner = some b → (c = .clearBanner h ∨ b.remaining ≠ none) →
        t.paint.banner = none ∧ t.paint.bannerScroll = .still ∧ t.paint.bannerStep = false ∧
        t.paint.bannerCompose = false ∧ (s.board = .showing → ClockRaised s t) ∧
        Marked (if s.board = .alert then [1] else []) s t ∧
        (∀ out, s.paint.job = some (.bannerCompose out) → t.paint.job = some (.bannerCompose none)) ∧
        (∀ out, s.paint.job = some (.bannerStep out) → t.paint.job = some (.bannerStep none)) ∧
        FramedBy [.banner, .bannerScroll, .results] s t)

/-- A TABLE job ends and the engine is free: its image is placed in the line's pending image and its layout record kept, if the line is
still TABLE's; on line 1 the pending calling step is cleared, and a strip begins its pause and a static line stops the scroll; otherwise
nothing is placed (R122, R124, R130, R131, R134, R137; log entry 29 for the step interval of a scroll without a pause). -/
def Obligations.TableJobPlaces : Prop :=
  ∀ (s : State) (line : Nat) (out : Option Composed), Running s → s.paint.job = some (.table line out) →
    ∃ t, exec .tableJobComplete s = .next t ∧
      ((out = none ∨ ownerOf s line ≠ .table) → FramedBy [] s t ∧
        EngineFreed s.paint.callingStep s.paint.bannerStep s t) ∧
      ∀ c, out = some c → ownerOf s line = .table →
        t.frame = ({ s.frame with pending := s.frame.pending.set line (some c.image) } : FrameStore) ∧
        t.paint.layouts = s.paint.layouts.set line c.layout ∧
        (line ≠ 1 → t.paint.callingScroll = s.paint.callingScroll ∧
          EngineFreed s.paint.callingStep s.paint.bannerStep s t) ∧
        (line = 1 → t.paint.callingStep = false ∧ EngineFreed false s.paint.bannerStep s t ∧
          (c.strip = none → t.paint.callingScroll = .still) ∧
          ∀ strip, c.strip = some strip → t.paint.callingScroll = pausedAt s strip) ∧
        FramedBy [.frame, .layouts, .callingScroll] s t

/-- A CLOCK job and a banner compose end and the engine is free: placed on line L − 1 if it is still CLOCK's, and on the line composed
for if it is still BANNER's, where a strip begins its pause, a banner step that is pending staying so, and a static banner stops the
scroll and clears the step (R124, R130, R132, R134, R137, R140; log entry 29 for the step interval of a scroll without a pause). -/
def Obligations.ClockAndBannerPlaced : Prop :=
  (∀ (s : State) (out : Option Composed), Running s → s.paint.job = some (.clock out) →
    ∃ t, exec .clockJobComplete s = .next t ∧ EngineFreed s.paint.callingStep s.paint.bannerStep s t ∧
      ((out = none ∨ ownerOf s (s.lines - 1) ≠ .clock) → FramedBy [] s t) ∧
      ∀ c, out = some c → ownerOf s (s.lines - 1) = .clock →
        t.frame = ({ s.frame with pending := s.frame.pending.set (s.lines - 1) (some c.image) } : FrameStore) ∧
        t.paint.layouts = s.paint.layouts.set (s.lines - 1) c.layout ∧
        FramedBy [.frame, .layouts] s t) ∧
  ∀ (s : State) (out : Option (Nat × Composed)), Running s → s.paint.job = some (.bannerCompose out) →
    ∃ t, exec .bannerComposeComplete s = .next t ∧
      (out = none → FramedBy [] s t ∧ EngineFreed s.paint.callingStep s.paint.bannerStep s t) ∧
      ∀ line c, out = some (line, c) →
        (ownerOf s line ≠ .banner → FramedBy [] s t ∧
          EngineFreed s.paint.callingStep s.paint.bannerStep s t) ∧
        (ownerOf s line = .banner →
          t.frame = ({ s.frame with pending := s.frame.pending.set line (some c.image) } : FrameStore) ∧
          t.paint.layouts = s.paint.layouts.set line c.layout ∧
          (c.strip = none → t.paint.bannerScroll = .still ∧ t.paint.bannerStep = false ∧
            EngineFreed s.paint.callingStep false s t) ∧
          (∀ strip, c.strip = some strip → t.paint.bannerScroll = pausedAt s strip ∧
            EngineFreed s.paint.callingStep s.paint.bannerStep s t) ∧
          FramedBy [.frame, .layouts, .bannerScroll] s t)

/-- A scroll step ends and the engine is free: its window is placed if the line is still the scroll's, and the offset moves; at offset 0
the pause begins again and a step that fell due meanwhile is cleared; a stopped scroll stays STILL (R130, R134, R136; log entry 12: the
offset moves at the completion; log entry 29 for the step interval). -/
def Obligations.ScrollStepsLand : Prop :=
  (∀ (s : State) (r : StepResult), Running s → s.paint.job = some (.callingStep (some r)) →
    ∃ t, exec .callingStepComplete s = .next t ∧
      (ownerOf s 1 ≠ .table → FramedBy [] s t ∧ EngineFreed s.paint.callingStep s.paint.bannerStep s t) ∧
      (ownerOf s 1 = .table →
        t.frame = ({ s.frame with pending := s.frame.pending.set 1 (some r.image) } : FrameStore) ∧
        (∀ strip offset wait, s.paint.callingScroll = .moving strip offset wait →
          (r.offset = 0 → t.paint.callingScroll = pausedAt s strip ∧ t.paint.callingStep = false ∧
            EngineFreed false s.paint.bannerStep s t) ∧
          (r.offset ≠ 0 → t.paint.callingScroll = .moving strip r.offset wait ∧
            EngineFreed s.paint.callingStep s.paint.bannerStep s t)) ∧
        (s.paint.callingScroll = .still → t.paint.callingScroll = .still ∧
          EngineFreed s.paint.callingStep s.paint.bannerStep s t) ∧
        FramedBy [.frame, .callingScroll] s t)) ∧
  (∀ (s : State) (line : Nat) (r : StepResult), Running s → s.paint.job = some (.bannerStep (some (line, r))) →
    ∃ t, exec .bannerStepComplete s = .next t ∧
      (ownerOf s line ≠ .banner → FramedBy [] s t ∧
        EngineFreed s.paint.callingStep s.paint.bannerStep s t) ∧
      (ownerOf s line = .banner →
        t.frame = ({ s.frame with pending := s.frame.pending.set line (some r.image) } : FrameStore) ∧
        (∀ strip offset wait, s.paint.bannerScroll = .moving strip offset wait →
          (r.offset = 0 → t.paint.bannerScroll = pausedAt s strip ∧ t.paint.bannerStep = false ∧
            EngineFreed s.paint.callingStep false s t) ∧
          (r.offset ≠ 0 → t.paint.bannerScroll = .moving strip r.offset wait ∧
            EngineFreed s.paint.callingStep s.paint.bannerStep s t)) ∧
        (s.paint.bannerScroll = .still → t.paint.bannerScroll = .still ∧
          EngineFreed s.paint.callingStep s.paint.bannerStep s t) ∧
        FramedBy [.frame, .bannerScroll] s t)) ∧
  ∀ s : State, Running s →
    (s.paint.job = some (.callingStep none) → ∃ t, exec .callingStepComplete s = .next t ∧ FramedBy [] s t ∧
      EngineFreed s.paint.callingStep s.paint.bannerStep s t) ∧
    (s.paint.job = some (.bannerStep none) → ∃ t, exec .bannerStepComplete s = .next t ∧ FramedBy [] s t ∧
      EngineFreed s.paint.callingStep s.paint.bannerStep s t)

/-- A pause that ends sets its scroll MOVING at offset 0 with one step interval to run; a step that falls due runs the timer on by the
interval and stands pending, once however many fall due, unless an idle arbiter grants it in the event; a scroll that is not PAUSED, or
not MOVING, is left as it is (R134, R135; log entry 29 for the interval, log entry 4 for an event of a timer that does not run). -/
def Obligations.ScrollTimersRun : Prop :=
  ∀ s : State, Running s →
    (∃ t, exec (.scrollPauseExpiry .calling) s = .next t ∧ FramedAtRest [.callingScroll] s t ∧
      (∀ strip wait, s.paint.callingScroll = .paused strip wait →
        t.paint.callingScroll = .moving strip 0 (stepNs s)) ∧
      ((∀ strip wait, s.paint.callingScroll ≠ .paused strip wait) →
        t.paint.callingScroll = s.paint.callingScroll)) ∧
    (∃ t, exec (.scrollPauseExpiry .banner) s = .next t ∧ FramedAtRest [.bannerScroll] s t ∧
      (∀ strip wait, s.paint.bannerScroll = .paused strip wait →
        t.paint.bannerScroll = .moving strip 0 (stepNs s)) ∧
      ((∀ strip wait, s.paint.bannerScroll ≠ .paused strip wait) → t.paint.bannerScroll = s.paint.bannerScroll)) ∧
    (∃ t, exec (.scrollStepDue .calling) s = .next t ∧ FramedBy [.callingScroll] s t ∧
      (∀ strip offset wait, s.paint.callingScroll = .moving strip offset wait →
        t.paint.callingScroll = .moving strip offset (min wait 0 + stepNs s) ∧
        (t.paint.callingStep = true ∨ (s.paint.job = none ∧ ∃ out, t.paint.job = some (.callingStep out)))) ∧
      ((∀ strip offset wait, s.paint.callingScroll ≠ .moving strip offset wait) →
        t.paint.callingScroll = s.paint.callingScroll)) ∧
    ∃ t, exec (.scrollStepDue .banner) s = .next t ∧ FramedBy [.bannerScroll] s t ∧
      (∀ strip offset wait, s.paint.bannerScroll = .moving strip offset wait →
        t.paint.bannerScroll = .moving strip offset (min wait 0 + stepNs s) ∧
        (t.paint.bannerStep = true ∨
          (s.paint.job = none ∧ ((∃ out, t.paint.job = some (.bannerStep out)) ∨
            ∃ out, t.paint.job = some (.bannerCompose out))))) ∧
      ((∀ strip offset wait, s.paint.bannerScroll ≠ .moving strip offset wait) →
        t.paint.bannerScroll = s.paint.bannerScroll)

/-- The decision of an idle arbiter, on the state `u` in which the suspend request has been judged (log entry 11): none while no slot is
grantable, no TABLE job while HELD; else the first grantable slot in cyclic order after the one last granted, which composes from the
state as it stands: TABLE its lowest eligible dirty line, SCROLL the calling scroll's next offset, CLOCK its line, BANNER its compose
before its step. It says too the cyclic order, whose a line is, when a line is eligible and a slot grantable, when a bank is busy and
with which cause, and when the suspend request is raised and withdrawn (R88, R120, R124, R125, R127, R128, R129, R131, R132, R136, R140,
R141, R144). -/
def Obligations.RoundRobinGrant : Prop :=
  (∀ (s : State) (line : Nat), (bannerLine s = some line ↔ BannerOwns s line) ∧
    (ownerOf s line = .banner ↔ BannerOwns s line) ∧
    (ownerOf s line = .clock ↔ ¬ BannerOwns s line ∧ line = s.lines - 1) ∧
    (ownerOf s line = .table ↔ ¬ BannerOwns s line ∧ line ≠ s.lines - 1) ∧
    (eligible s line = true ↔ LineEligible s line)) ∧
  (roundAfter .table = [.scroll, .clock, .banner, .table] ∧ roundAfter .scroll = [.clock, .banner, .table, .scroll] ∧
    roundAfter .clock = [.banner, .table, .scroll, .clock] ∧ roundAfter .banner = [.table, .scroll, .clock, .banner]) ∧
  (∀ (op : DirOp) (bank : Bank) (cause : BusyCause), bankBusy op bank = some cause ↔ BankBusyFor op bank cause) ∧
  (∀ (s : State) (slot : Slot), grantable s slot = true ↔ SlotGrantable s slot) ∧
  (∀ s : State, (raiseCondition s = true ↔ MayRaise s) ∧ (withdrawCondition s = true ↔ MustWithdraw s)) ∧
  ∀ (s u : State) (slot : Slot), s.paint.job = none → u = judgeRequest s →
    (HoldHeld s → ∀ line out, (settle s).paint.job ≠ some (.table line out)) ∧
    ((∀ x, grantable u x = false) → (settle s).paint.job = none ∧ (settle s).paint.lastGranted = s.paint.lastGranted) ∧
    (grantable u slot = true →
      (∀ before after, roundAfter s.paint.lastGranted = before ++ slot :: after → ∀ x ∈ before, grantable u x = false) →
      (settle s).paint.lastGranted = slot ∧
      (slot = .table → ∃ line, line ∈ u.paint.dirty ∧ eligible u line = true ∧
        (u.paint.dirty.Pairwise (· < ·) → ∀ n ∈ u.paint.dirty, n < line → eligible u n = false) ∧
        (settle s).paint.job = some (.table line (some (composeTable u line))) ∧
        ∀ n, n ∈ (settle s).paint.dirty ↔ n ∈ u.paint.dirty ∧ n ≠ line) ∧
      (slot ≠ .table → (settle s).paint.dirty = u.paint.dirty) ∧
      (slot = .scroll → (settle s).paint.callingStep = false ∧
        ∀ strip offset wait, u.paint.callingScroll = .moving strip offset wait →
          (settle s).paint.job = some (.callingStep (some {
            offset := nextOffset u strip offset
            image := stripWindow u.geometry strip (nextOffset u strip offset) }))) ∧
      (slot = .clock → (settle s).paint.clockRequest = false ∧
        (bannerLine u = some (u.lines - 1) → (settle s).paint.job = some (.clock none)) ∧
        (bannerLine u ≠ some (u.lines - 1) → (u.board = .starting ∨ u.board = .dark) →
          (settle s).paint.job = some (.clock (some (composeBlank u)))) ∧
        (bannerLine u ≠ some (u.lines - 1) → u.board ≠ .starting → u.board ≠ .dark →
          (settle s).paint.job = some (.clock (some (composeClock u))))) ∧
      (slot = .banner → u.paint.bannerCompose = true →
        (settle s).paint.bannerCompose = false ∧ (settle s).paint.bannerStep = false ∧
        ∃ out, (settle s).paint.job = some (.bannerCompose out) ∧
          ∀ b line, u.paint.banner = some b → bannerLine u = some line → out = some (line, composeBanner u b)) ∧
      (slot = .banner → u.paint.bannerCompose = false → (settle s).paint.bannerStep = false ∧
        ∃ out, (settle s).paint.job = some (.bannerStep out) ∧
          ∀ line strip offset wait, bannerLine u = some line → u.paint.bannerScroll = .moving strip offset wait →
            out = some (line, {
              offset := nextOffset u strip offset
              image := stripWindow u.geometry strip (nextOffset u strip offset) })))

/-- What a line shows: glyphs of their class's width within their font's rows, texts of glyphs with one gap between; the status text
the first of its tests gives, the destination of the fallback chain, the calling text with its reductions, each within its field or the
strip cap; and from them each line by board state, with its layout record: departure, calling, empty-board, screen and blank lines, the
clock, the banner, and the window of a strip (R46, R99 to R106, R107 to R122, R133, R156; log entry 20 for the kind of an empty calling
line). -/
def Obligations.TextsFitTheirFields : Prop :=
  (∀ (s : State) (r : Record), SettingsOK s.settings → textWidth .large (statusText s r).2 ≤ 56 ∧
    StatusIs s r (statusText s r).1 (statusText s r).2) ∧
  (∀ (size : Nat) (small : Bool) (e : PlaceEntry) (via : Option PlaceEntry),
    DestinationIs size small e via (destinationText size small e via) ∧
    (5 ≤ size → textWidth (destinationText size small e via).font (destinationText size small e via).text ≤ size)) ∧
  (∀ (d : Directory) (r : Record), textWidth .large (callingText d r).text ≤ 4096 ∧
    ((∀ st ∈ r.stops, ∃ e, Holds d st.place e ∧ EntryInRange e) → (∀ n ∈ r.train, n ≤ 16) →
      CallingIs d r (callingText d r))) ∧
  (∀ (f : Font) (c : Byte), GlyphIs f c (glyphWidth f c) (glyphColumns f c)) ∧
  (∀ f : Font, textColumns f [] = [] ∧ textWidth f [] = 0 ∧
    (∀ c, textColumns f [c] = glyphColumns f c ∧ textWidth f [c] = glyphWidth f c) ∧
    ∀ a b, a ≠ [] → b ≠ [] → textColumns f (a ++ b) = textColumns f a ++ [0] ++ textColumns f b ∧
      textWidth f (a ++ b) = textWidth f a + 1 + textWidth f b) ∧
  (∀ (s : State) (line : Nat), SettingsOK s.settings → TableLineComposed s line (composeTable s line)) ∧
  (∀ s : State, StillLine s [] .blank (composeBlank s) ∧
    (s.time.valid = false →
      StillLine s [(centre s .large (glyphs "--:--"), textColumns .large (glyphs "--:--"))] (.clock none) (composeClock s)) ∧
    (s.time.valid = true → s.time.minute < 1440 →
      StillLine s [(centre s .large (hhmm s.time.minute), textColumns .large (hhmm s.time.minute))]
        (.clock (some s.time.minute)) (composeClock s))) ∧
  (∀ (s : State) (b : Banner), TextComposed s (centre s .large b.text) b.text
    (fun mode => .banner (textWidth .large b.text) mode) (composeBanner s b)) ∧
  ∀ (s : State) (strip : List Column) (offset : Int), WindowOf s strip offset (stripWindow s.geometry strip offset)

/-! ### Frame Store and panels -/

/-- The refresh makes every pending image the shown one and begins the shift, each module's 512 pixels row by row, the last module of
the chain first, with the board state read for blanking; the shift's end latches every module and sets the blank output (R149 to
R152). -/
def Obligations.RefreshAndShift : Prop :=
  (∀ s : State, Running s → s.frame.shown.length = boardLines s.geometry →
    s.frame.pending.length = boardLines s.geometry →
    ∃ t shift, exec .refresh s = .next t ∧ FramedAtRest [.frame] s t ∧
      (∀ (n : Nat) (old : List Column) (p : Option (List Column)), s.frame.shown[n]? = some old →
        s.frame.pending[n]? = some p → t.frame.shown[n]? = some (p.getD old)) ∧
      t.frame.shown.length = s.frame.shown.length ∧ (∀ p ∈ t.frame.pending, p = none) ∧
      t.frame.pending.length = s.frame.pending.length ∧ t.frame.refreshTimer = 0 ∧ t.frame.blank = s.frame.blank ∧
      t.frame.panels = s.frame.panels ∧ t.frame.shift = some shift ∧ (shift.dark = true ↔ s.board = .dark) ∧
      shift.remaining = (moduleCount s.geometry : Int) * 512 * 80 ∧ shift.blocks.length = moduleCount s.geometry ∧
      ∀ (k row column : Nat) (image : List Column), k < moduleCount s.geometry → row < 16 → column < 32 →
        t.frame.shown[k / modulesAcross s.geometry]? = some image → image.length = boardWidth s.geometry →
        ∃ block pixels, shift.blocks[moduleCount s.geometry - 1 - k]? = some block ∧
          image[32 * (k % modulesAcross s.geometry) + column]? = some pixels ∧
          block[32 * row + column]? = some (pixels.getLsbD row)) ∧
  ∀ s : State, Running s → ∃ t, exec .shiftComplete s = .next t ∧ FramedAtRest [.frame] s t ∧
    (s.frame.shift = none → t.frame = s.frame) ∧
    ∀ sh, s.frame.shift = some sh →
      t.frame = ({ s.frame with shift := none, panels := sh.blocks.reverse, blank := sh.dark } : FrameStore)

/-! ### The return line -/

/-- An octet slot of the return line: the alignment pattern, then the marker or the captured overhead record, which stands until it is
captured again, then results octet by octet, the head of the queue captured when none is in progress, and fill when none waits; the
octet and frame counters step on. A read is answered with the content its rule gives, item by item, as the state stands at the capture
(R27, R28, R68, R90, R91, R123, R147, R160, R171 to R173, R178, R184, R185, R191; log entries 18 to 23 and 37 for the coding of items). -/
def Obligations.ReturnOctetSent : Prop :=
  CodesAsGiven ∧ ∀ s : State, Running s →
    ∃ t, exec .returnOctet s = .next t ∧ FramedAtRest [.results] s t ∧
      ((s.results.octet ≠ 1 ∨ s.results.frame ≠ 1) → t.results.overhead = s.results.overhead) ∧
      (s.results.octet = 31 → t.results.octet = 0 ∧
        t.results.frame = if s.results.frame = 5 then 0 else s.results.frame + 1) ∧
      (s.results.octet ≠ 31 → t.results.octet = s.results.octet + 1 ∧ t.results.frame = s.results.frame) ∧
      (s.results.octet = 0 → t.results.line = some (if s.results.frame % 2 = 0 then 0x1B else 0xE4) ∧
        t.results.queue = s.results.queue ∧ t.results.record = s.results.record ∧ t.results.lost = s.results.lost) ∧
      (s.results.octet = 1 → t.results.queue = s.results.queue ∧ t.results.record = s.results.record ∧
        (s.results.frame = 0 → t.results.line = some 0xA5 ∧ t.results.lost = s.results.lost) ∧
        (s.results.frame = 1 → t.results.lost = false ∧ ∃ a b c d e : Byte, t.results.overhead = [a, b, c, d, e] ∧
          t.results.line = some a ∧ (a.toNat + b.toNat + c.toNat + d.toNat + e.toNat) % 256 = 0 ∧
          b.toNat = boardCode s.board ∧ c.toNat = 16 - s.results.queue.length ∧ d.toNat = dirOpCode s.dir.op ∧
          (a.toNat % 4 = alignmentCode s.feed.alignment) ∧
          (a.getLsbD 2 = s.feed.position.isSome) ∧ (a.getLsbD 3 = true ↔ s.time.freshness = .lapsed) ∧
          (a.getLsbD 4 = true ↔ alignmentCode s.feed.alignment ≠ 2) ∧ a.getLsbD 5 = s.results.lost ∧
          a.getLsbD 6 = false ∧ a.getLsbD 7 = false) ∧
        (∀ b, 2 ≤ s.results.frame → s.results.overhead[s.results.frame - 1]? = some b →
          t.results.line = some b ∧ t.results.lost = s.results.lost)) ∧
      (2 ≤ s.results.octet → t.results.lost = s.results.lost ∧
        (∀ b rest, s.results.record = b :: rest → t.results.line = some b ∧ t.results.record = rest ∧
          t.results.queue = s.results.queue) ∧
        (s.results.record = [] → s.results.queue = [] → t.results.line = some 0 ∧ t.results.record = [] ∧
          t.results.queue = []) ∧
        (∀ kind tag outcome detail rest, s.results.record = [] →
          s.results.queue = .result kind tag outcome detail :: rest →
          t.results.line = some 0xC3 ∧ t.results.queue = rest ∧
          0xC3 :: t.results.record = decidedRecord kind tag outcome detail) ∧
        (∀ tag object rest, s.results.record = [] → s.results.queue = .read tag object :: rest →
          t.results.line = some 0xC3 ∧ t.results.queue = rest ∧
          (∀ key, object = .service key → findRecord key s.table.slots = none →
            0xC3 :: t.results.record = decidedRecord 0x20 tag 3 0) ∧
          (∀ key r, object = .service key → findRecord key s.table.slots = some r →
            ∃ content, ServiceContentIs s r content ∧ 0xC3 :: t.results.record = doneRecord 0x20 tag content) ∧
          (∀ place, object = .place place →
            ∃ content, PlaceContentIs s place content ∧ 0xC3 :: t.results.record = doneRecord 0x21 tag content) ∧
          (object = .board → s.dir.wf = true →
            ∃ content, BoardContentIs (s.withResults { s.results with queue := rest }) content ∧
              0xC3 :: t.results.record = doneRecord 0x22 tag content)))

/-! ### Settings, staff key and resets -/

/-- SET BOARD: refused for its filter, then for a change of origin while the table holds records; else every setting present takes its
clamped value at once, answered with the number changed, and each change reaches the block that reads it: the order under a new
filter, "now" under a new origin, freshness under a new holdover limit, an erase under auto-suspend, the lines that a change of
filter, small font or board state repaints, what a change of board state sets off, and the requests of slots now enabled. Where no such
change reaches them, the board state, scrolls, requests and running job stand, and the directory moves only as the suspend request
makes it at the event's end (R26, R30, R37, R50, R87, R128, R129, R155, R186 to R188; log entry 24 for "now" under a new origin while
time is invalid, log entry 25 for the timer at a lapse by a lowered limit and in LAPSED). -/
def Obligations.SetBoardTaken : Prop :=
  ∀ (h : Header) (f : BoardFields) (s : State), Listening s → TableInv s → SettingsOK s.settings →
    BoardIs s.feed.station s.time.freshness s.time.valid s.board →
    ∃ t new, exec (.setBoard h f) s = .next t ∧
      ((∃ l ∈ f.filter, 4 < l.length ∨ ∃ c ∈ l, ¬ PlatformCode c) → Answered kindSetBoard h 6 0 s t ∧
        FramedAtRest [.results] s t) ∧
      ((∀ l ∈ f.filter, l.length ≤ 4 ∧ ∀ c ∈ l, PlatformCode c) → SettingsTaken f s.settings new ∧
        (new.origin ≠ s.settings.origin → s.records ≠ [] → Answered kindSetBoard h 19 s.records.length s t ∧
          FramedAtRest [.results] s t) ∧
        ((new.origin = s.settings.origin ∨ s.records = []) →
          t.settings = new ∧ t.table.order = runningOrder new.filter s.table.slots ∧
          (BoardClamped f → Answered kindSetBoard h 1 (changedCount new s.settings) s t) ∧
          (¬ BoardClamped f → Answered kindSetBoard h 0 (changedCount new s.settings) s t) ∧
          (t.time = ({ s.time with
            now := t.time.now, rollHold := t.time.rollHold, freshness := t.time.freshness
            freshTimer := t.time.freshTimer } : Timekeeper)) ∧
          (new.origin = s.settings.origin → t.time.now = s.time.now ∧ t.time.rollHold = s.time.rollHold) ∧
          (new.origin ≠ s.settings.origin → t.time.rollHold = false ∧
            (s.time.minute < 1440 → NowIs new.origin s.time.minute false t.time.now)) ∧
          ((new.holdover ≠ s.settings.holdover ∧ s.time.freshness = .fresh ∧
              60000 * new.holdover ≤ s.time.freshTimer) →
            t.time.freshness = .lapsed ∧ t.time.freshTimer = 60000 * new.holdover) ∧
          (¬ (new.holdover ≠ s.settings.holdover ∧ s.time.freshness = .fresh ∧
              60000 * new.holdover ≤ s.time.freshTimer) →
            t.time.freshness = s.time.freshness ∧ t.time.freshTimer = s.time.freshTimer) ∧
          BoardIs s.feed.station t.time.freshness s.time.valid t.board ∧
          (∃ lines, Marked lines s t ∧ ∀ n, n ∈ lines ↔ n + 1 < s.lines ∧
            (new.filter ≠ s.settings.filter ∨ t.board ≠ s.board ∨
              (new.smallFont ≠ s.settings.smallFont ∧ n ≠ 1))) ∧
          (∀ e c, s.dir.op = .suspended e c .paint → s.settings.autoSuspend = true → new.autoSuspend = false →
            DirSettled (.erasing e { c with begun := true }) (setInsert c.sector s.dir.eraseMarks) t) ∧
          (∀ e c, s.dir.op = .erasing e c → s.paint.suspendRequest = true → s.settings.autoSuspend = false →
            new.autoSuspend = true → t.dir.op = .suspending e c .paint [] ∧ t.dir.eraseMarks = s.dir.eraseMarks) ∧
          ((∀ e c, s.dir.op = .suspended e c .paint → ¬ (s.settings.autoSuspend = true ∧ new.autoSuspend = false)) →
            (∀ e c, s.dir.op = .erasing e c →
              ¬ (s.paint.suspendRequest = true ∧ s.settings.autoSuspend = false ∧ new.autoSuspend = true)) →
            DirSettled s.dir.op s.dir.eraseMarks t) ∧
          (t.board ≠ s.board → BoardChanged s t) ∧
          (t.board = s.board → t.paint.callingScroll = s.paint.callingScroll ∧
            t.paint.bannerScroll = s.paint.bannerScroll) ∧
          (Settled t ∧ ∃ u : State, t = settle u ∧ u.settings = new ∧ u.paint.lastGranted = s.paint.lastGranted ∧
            u.paint.job.map Job.slot = s.paint.job.map Job.slot ∧ u.paint.suspendRequest = s.paint.suspendRequest ∧
            (t.board = s.board → u.paint.job = s.paint.job ∧ Part.requests.same s u)) ∧
          SameBut (([.settings, .results, .order, .time, .board, .callingScroll, .bannerScroll] : List Part) ++ arbiterParts) s t))

/-- RESTART: every setting at its default, the table, the queue, the unpacker, the hold, the banner and the scrolls as after a reset, a
running job abandoned, the suspend request withdrawn, and the directory scanning with its storage kept; board time, freshness, the last
record and the station state stand, and the board state is derived anew and repaints the board: lines 0 to L − 2 and the clock are all
that is requested (R6, R20, R126, R146, R148, R158, R174, R182, R189; log entry 25 for the timer at a lapse by the default limit). -/
def Obligations.RestartResetsButKeepsTime : Prop :=
  ∀ s : State, Listening s → s.time.minute < 1440 →
    ∃ t, exec .restart s = .next t ∧ t.settings = Settings.default ∧ t.table = Table.reset ∧
      t.unpacker = Unpacker.reset ∧ t.results = ({ s.results with queue := [], lost := false } : ResultSender) ∧
      t.feed = ({ s.feed with candidate := none, lossCount := 0 } : FeedReceiver) ∧
      (t.time = ({ s.time with
        inconsistent := 0, rollHold := false, now := t.time.now, freshness := t.time.freshness
        freshTimer := t.time.freshTimer } : Timekeeper) ∧ NowIs 180 s.time.minute false t.time.now ∧
        ((s.time.freshness = .fresh ∧ 600000 ≤ s.time.freshTimer) →
          t.time.freshness = .lapsed ∧ t.time.freshTimer = 600000) ∧
        (¬ (s.time.freshness = .fresh ∧ 600000 ≤ s.time.freshTimer) →
          t.time.freshness = s.time.freshness ∧ t.time.freshTimer = s.time.freshTimer)) ∧
      BoardIs s.feed.station t.time.freshness s.time.valid t.board ∧
      (t.paint.hold = .free ∧ t.paint.banner = none ∧ t.paint.callingScroll = .still ∧ t.paint.bannerScroll = .still ∧
        t.paint.layouts = List.replicate s.lines .none ∧ NowDirty (List.range (s.lines - 1)) t) ∧
      (t.paint.callingStep = false ∧ t.paint.bannerCompose = false ∧ t.paint.bannerStep = false ∧
        t.paint.suspendRequest = false ∧ ∃ u : State, t = settle u ∧ u.paint.job = none ∧ u.paint.lastGranted = .banner ∧
          u.paint.dirty = List.range (s.lines - 1) ∧ u.paint.clockRequest = true ∧ u.paint.callingStep = false ∧
          u.paint.bannerCompose = false ∧ u.paint.bannerStep = false) ∧
      (t.frame.shown = List.replicate s.lines (darkImage s.geometry) ∧
        t.frame.pending = List.replicate s.lines none ∧ t.frame.shift = none ∧ t.frame.blank = true ∧
        t.frame.refreshTimer = s.frame.refreshTimer ∧ t.frame.panels = s.frame.panels) ∧
      (t.dir.op = .scanning ∧ t.dir.counts = [] ∧ t.dir.storage = s.dir.storage ∧
        t.dir.eraseMarks = s.dir.eraseMarks ∧ t.dir.locks = s.dir.locks ∧
        (t.dir.lockFlags = s.dir.lockFlags ∨ ∃ l, s.dir.op = .locking l ∧ t.dir.lockFlags = l.target)) ∧
      (s.dir.wf = true → ∀ p < 1024, slotState t.dir p =
        if writingSlot s.dir.op = some p ∨ begunSector s.dir.op = some (sectorOf p) then .defective
        else slotState s.dir p) ∧
      SameBut (([.settings, .feed, .unpacker, .results, .time, .board, .slots, .order, .window, .lockFlags, .slotStates,
        .counts, .hold, .banner, .callingScroll, .bannerScroll, .layouts, .frame, .freeIndex] : List Part) ++ arbiterParts) s t

/-- The staff key: an input level that differs from the de-bounced one starts the de-bounce, a return to it ends the de-bounce, and a
level held for its time becomes the de-bounced level (R190). -/
def Obligations.StaffKeyDebounced : Prop :=
  ∀ s : State, Running s →
    (∀ closed : Bool, ∃ t, exec (.staffKeyInputChange closed) s = .next t ∧ SameBut [.key] s t ∧
      t.key.input = closed ∧ t.key.asserted = s.key.asserted ∧
      (closed = s.key.asserted → t.key.timer = none) ∧
      (closed ≠ s.key.asserted → closed ≠ s.key.input → t.key.timer = some 0) ∧
      (closed ≠ s.key.asserted → closed = s.key.input → t.key.timer = s.key.timer)) ∧
    ∃ t, exec .staffKeyDebounced s = .next t ∧ FramedAtRest [.key] s t ∧
      (s.key.timer = none → t.key = s.key) ∧
      (∀ n, s.key.timer = some n → t.key = { input := s.key.input, timer := none, asserted := s.key.input })

/-- Power-on and the reset line hold the part with every block at its reset value, its storage kept; reset release latches the
geometry from the pins, starts the part with the directory scanning, every line of TABLE marked and the board state STARTING (R92, R94, R126, R146, R148,
R152, R158, R190; log entries 3 and 4 for the release, 14 for the geometry and images until it, 15 for the slot states and locks before the scan, 28 for the panels and 34 for the return record). -/
def Obligations.ResetsHoldAndRelease : Prop :=
  (∀ (c : Instr) (s : State), (c = .powerOn ∨ c = .resetLineAssert) →
    ∃ t, exec c s = .next t ∧ t.phase = .inReset ∧ t.settings = Settings.default ∧ t.time = Timekeeper.reset ∧
      t.table = Table.reset ∧ t.feed = FeedReceiver.reset ∧ t.unpacker = Unpacker.reset ∧
      t.results = ResultSender.reset ∧ t.paint = Paint.reset s.lines ∧
      t.frame = { FrameStore.reset s.geometry with panels := s.frame.panels } ∧
      t.key = { input := s.key.input, timer := none, asserted := false } ∧
      (t.dir.op = .scanning ∧ t.dir.counts = [] ∧ t.dir.slotStates = [] ∧ t.dir.locks = [] ∧
        t.dir.storage = s.dir.storage ∧ t.dir.eraseMarks = s.dir.eraseMarks ∧
        (t.dir.lockFlags = s.dir.lockFlags ∨ ∃ l, s.dir.op = .locking l ∧ t.dir.lockFlags = l.target)) ∧
      t.pending = s.pending) ∧
  ∀ (geo1 geo0 : Bool) (s : State),
    (s.phase = .running → exec (.resetRelease geo1 geo0) s = .next s) ∧
    (s.phase = .inReset → s.dir.op = .scanning → s.table = Table.reset → s.time = Timekeeper.reset →
      s.feed = FeedReceiver.reset →
      ∃ t, exec (.resetRelease geo1 geo0) s = .next t ∧ t.phase = .running ∧ t.elapsed = 0 ∧
        t.geometry = 2 * geo1.toNat + geo0.toNat ∧ t.board = .starting ∧ t.dir = s.dir ∧
        NowDirty (List.range (t.lines - 1)) t ∧
        t.frame = FrameStore.reset t.geometry ∧ t.paint.layouts = List.replicate t.lines .none ∧
        t.key.asserted = s.key.asserted ∧ (t.key.timer = if s.key.input then some 0 else none) ∧
        SameBut (([.phase, .elapsed, .geometry, .key, .board, .frame, .hold, .banner, .callingScroll, .bannerScroll,
          .layouts] : List Part) ++ arbiterParts) s t)
end

