-- ==== Sys2Proof/Laws/State.lean ====
section
/-! SUPPORT. What each field reads after each update of the State: one lemma a field an update, true by rfl. -/

namespace Sys2Proof.Machine

@[simp] theorem State.withPhase_phase (s : State) (v : Phase) : (s.withPhase v).phase = v := rfl
@[simp] theorem State.withPhase_elapsed (s : State) (v : Phase) : (s.withPhase v).elapsed = s.elapsed := rfl
@[simp] theorem State.withPhase_geometry (s : State) (v : Phase) : (s.withPhase v).geometry = s.geometry := rfl
@[simp] theorem State.withPhase_settings (s : State) (v : Phase) : (s.withPhase v).settings = s.settings := rfl
@[simp] theorem State.withPhase_key (s : State) (v : Phase) : (s.withPhase v).key = s.key := rfl
@[simp] theorem State.withPhase_feed (s : State) (v : Phase) : (s.withPhase v).feed = s.feed := rfl
@[simp] theorem State.withPhase_unpacker (s : State) (v : Phase) : (s.withPhase v).unpacker = s.unpacker := rfl
@[simp] theorem State.withPhase_results (s : State) (v : Phase) : (s.withPhase v).results = s.results := rfl
@[simp] theorem State.withPhase_time (s : State) (v : Phase) : (s.withPhase v).time = s.time := rfl
@[simp] theorem State.withPhase_board (s : State) (v : Phase) : (s.withPhase v).board = s.board := rfl
@[simp] theorem State.withPhase_table (s : State) (v : Phase) : (s.withPhase v).table = s.table := rfl
@[simp] theorem State.withPhase_dir (s : State) (v : Phase) : (s.withPhase v).dir = s.dir := rfl
@[simp] theorem State.withPhase_paint (s : State) (v : Phase) : (s.withPhase v).paint = s.paint := rfl
@[simp] theorem State.withPhase_frame (s : State) (v : Phase) : (s.withPhase v).frame = s.frame := rfl
@[simp] theorem State.withPhase_freeIndex (s : State) (v : Phase) : (s.withPhase v).freeIndex = s.freeIndex := rfl
@[simp] theorem State.withPhase_pending (s : State) (v : Phase) : (s.withPhase v).pending = s.pending := rfl
@[simp] theorem State.withElapsed_phase (s : State) (v : Nat) : (s.withElapsed v).phase = s.phase := rfl
@[simp] theorem State.withElapsed_elapsed (s : State) (v : Nat) : (s.withElapsed v).elapsed = v := rfl
@[simp] theorem State.withElapsed_geometry (s : State) (v : Nat) : (s.withElapsed v).geometry = s.geometry := rfl
@[simp] theorem State.withElapsed_settings (s : State) (v : Nat) : (s.withElapsed v).settings = s.settings := rfl
@[simp] theorem State.withElapsed_key (s : State) (v : Nat) : (s.withElapsed v).key = s.key := rfl
@[simp] theorem State.withElapsed_feed (s : State) (v : Nat) : (s.withElapsed v).feed = s.feed := rfl
@[simp] theorem State.withElapsed_unpacker (s : State) (v : Nat) : (s.withElapsed v).unpacker = s.unpacker := rfl
@[simp] theorem State.withElapsed_results (s : State) (v : Nat) : (s.withElapsed v).results = s.results := rfl
@[simp] theorem State.withElapsed_time (s : State) (v : Nat) : (s.withElapsed v).time = s.time := rfl
@[simp] theorem State.withElapsed_board (s : State) (v : Nat) : (s.withElapsed v).board = s.board := rfl
@[simp] theorem State.withElapsed_table (s : State) (v : Nat) : (s.withElapsed v).table = s.table := rfl
@[simp] theorem State.withElapsed_dir (s : State) (v : Nat) : (s.withElapsed v).dir = s.dir := rfl
@[simp] theorem State.withElapsed_paint (s : State) (v : Nat) : (s.withElapsed v).paint = s.paint := rfl
@[simp] theorem State.withElapsed_frame (s : State) (v : Nat) : (s.withElapsed v).frame = s.frame := rfl
@[simp] theorem State.withElapsed_freeIndex (s : State) (v : Nat) : (s.withElapsed v).freeIndex = s.freeIndex := rfl
@[simp] theorem State.withElapsed_pending (s : State) (v : Nat) : (s.withElapsed v).pending = s.pending := rfl
@[simp] theorem State.withGeometry_phase (s : State) (v : Nat) : (s.withGeometry v).phase = s.phase := rfl
@[simp] theorem State.withGeometry_elapsed (s : State) (v : Nat) : (s.withGeometry v).elapsed = s.elapsed := rfl
@[simp] theorem State.withGeometry_geometry (s : State) (v : Nat) : (s.withGeometry v).geometry = v := rfl
@[simp] theorem State.withGeometry_settings (s : State) (v : Nat) : (s.withGeometry v).settings = s.settings := rfl
@[simp] theorem State.withGeometry_key (s : State) (v : Nat) : (s.withGeometry v).key = s.key := rfl
@[simp] theorem State.withGeometry_feed (s : State) (v : Nat) : (s.withGeometry v).feed = s.feed := rfl
@[simp] theorem State.withGeometry_unpacker (s : State) (v : Nat) : (s.withGeometry v).unpacker = s.unpacker := rfl
@[simp] theorem State.withGeometry_results (s : State) (v : Nat) : (s.withGeometry v).results = s.results := rfl
@[simp] theorem State.withGeometry_time (s : State) (v : Nat) : (s.withGeometry v).time = s.time := rfl
@[simp] theorem State.withGeometry_board (s : State) (v : Nat) : (s.withGeometry v).board = s.board := rfl
@[simp] theorem State.withGeometry_table (s : State) (v : Nat) : (s.withGeometry v).table = s.table := rfl
@[simp] theorem State.withGeometry_dir (s : State) (v : Nat) : (s.withGeometry v).dir = s.dir := rfl
@[simp] theorem State.withGeometry_paint (s : State) (v : Nat) : (s.withGeometry v).paint = s.paint := rfl
@[simp] theorem State.withGeometry_frame (s : State) (v : Nat) : (s.withGeometry v).frame = s.frame := rfl
@[simp] theorem State.withGeometry_freeIndex (s : State) (v : Nat) : (s.withGeometry v).freeIndex = s.freeIndex := rfl
@[simp] theorem State.withGeometry_pending (s : State) (v : Nat) : (s.withGeometry v).pending = s.pending := rfl
@[simp] theorem State.withSettings_phase (s : State) (v : Settings) : (s.withSettings v).phase = s.phase := rfl
@[simp] theorem State.withSettings_elapsed (s : State) (v : Settings) : (s.withSettings v).elapsed = s.elapsed := rfl
@[simp] theorem State.withSettings_geometry (s : State) (v : Settings) : (s.withSettings v).geometry = s.geometry := rfl
@[simp] theorem State.withSettings_settings (s : State) (v : Settings) : (s.withSettings v).settings = v := rfl
@[simp] theorem State.withSettings_key (s : State) (v : Settings) : (s.withSettings v).key = s.key := rfl
@[simp] theorem State.withSettings_feed (s : State) (v : Settings) : (s.withSettings v).feed = s.feed := rfl
@[simp] theorem State.withSettings_unpacker (s : State) (v : Settings) : (s.withSettings v).unpacker = s.unpacker := rfl
@[simp] theorem State.withSettings_results (s : State) (v : Settings) : (s.withSettings v).results = s.results := rfl
@[simp] theorem State.withSettings_time (s : State) (v : Settings) : (s.withSettings v).time = s.time := rfl
@[simp] theorem State.withSettings_board (s : State) (v : Settings) : (s.withSettings v).board = s.board := rfl
@[simp] theorem State.withSettings_table (s : State) (v : Settings) : (s.withSettings v).table = s.table := rfl
@[simp] theorem State.withSettings_dir (s : State) (v : Settings) : (s.withSettings v).dir = s.dir := rfl
@[simp] theorem State.withSettings_paint (s : State) (v : Settings) : (s.withSettings v).paint = s.paint := rfl
@[simp] theorem State.withSettings_frame (s : State) (v : Settings) : (s.withSettings v).frame = s.frame := rfl
@[simp] theorem State.withSettings_freeIndex (s : State) (v : Settings) : (s.withSettings v).freeIndex = s.freeIndex := rfl
@[simp] theorem State.withSettings_pending (s : State) (v : Settings) : (s.withSettings v).pending = s.pending := rfl
@[simp] theorem State.withKey_phase (s : State) (v : StaffKey) : (s.withKey v).phase = s.phase := rfl
@[simp] theorem State.withKey_elapsed (s : State) (v : StaffKey) : (s.withKey v).elapsed = s.elapsed := rfl
@[simp] theorem State.withKey_geometry (s : State) (v : StaffKey) : (s.withKey v).geometry = s.geometry := rfl
@[simp] theorem State.withKey_settings (s : State) (v : StaffKey) : (s.withKey v).settings = s.settings := rfl
@[simp] theorem State.withKey_key (s : State) (v : StaffKey) : (s.withKey v).key = v := rfl
@[simp] theorem State.withKey_feed (s : State) (v : StaffKey) : (s.withKey v).feed = s.feed := rfl
@[simp] theorem State.withKey_unpacker (s : State) (v : StaffKey) : (s.withKey v).unpacker = s.unpacker := rfl
@[simp] theorem State.withKey_results (s : State) (v : StaffKey) : (s.withKey v).results = s.results := rfl
@[simp] theorem State.withKey_time (s : State) (v : StaffKey) : (s.withKey v).time = s.time := rfl
@[simp] theorem State.withKey_board (s : State) (v : StaffKey) : (s.withKey v).board = s.board := rfl
@[simp] theorem State.withKey_table (s : State) (v : StaffKey) : (s.withKey v).table = s.table := rfl
@[simp] theorem State.withKey_dir (s : State) (v : StaffKey) : (s.withKey v).dir = s.dir := rfl
@[simp] theorem State.withKey_paint (s : State) (v : StaffKey) : (s.withKey v).paint = s.paint := rfl
@[simp] theorem State.withKey_frame (s : State) (v : StaffKey) : (s.withKey v).frame = s.frame := rfl
@[simp] theorem State.withKey_freeIndex (s : State) (v : StaffKey) : (s.withKey v).freeIndex = s.freeIndex := rfl
@[simp] theorem State.withKey_pending (s : State) (v : StaffKey) : (s.withKey v).pending = s.pending := rfl
@[simp] theorem State.withFeed_phase (s : State) (v : FeedReceiver) : (s.withFeed v).phase = s.phase := rfl
@[simp] theorem State.withFeed_elapsed (s : State) (v : FeedReceiver) : (s.withFeed v).elapsed = s.elapsed := rfl
@[simp] theorem State.withFeed_geometry (s : State) (v : FeedReceiver) : (s.withFeed v).geometry = s.geometry := rfl
@[simp] theorem State.withFeed_settings (s : State) (v : FeedReceiver) : (s.withFeed v).settings = s.settings := rfl
@[simp] theorem State.withFeed_key (s : State) (v : FeedReceiver) : (s.withFeed v).key = s.key := rfl
@[simp] theorem State.withFeed_feed (s : State) (v : FeedReceiver) : (s.withFeed v).feed = v := rfl
@[simp] theorem State.withFeed_unpacker (s : State) (v : FeedReceiver) : (s.withFeed v).unpacker = s.unpacker := rfl
@[simp] theorem State.withFeed_results (s : State) (v : FeedReceiver) : (s.withFeed v).results = s.results := rfl
@[simp] theorem State.withFeed_time (s : State) (v : FeedReceiver) : (s.withFeed v).time = s.time := rfl
@[simp] theorem State.withFeed_board (s : State) (v : FeedReceiver) : (s.withFeed v).board = s.board := rfl
@[simp] theorem State.withFeed_table (s : State) (v : FeedReceiver) : (s.withFeed v).table = s.table := rfl
@[simp] theorem State.withFeed_dir (s : State) (v : FeedReceiver) : (s.withFeed v).dir = s.dir := rfl
@[simp] theorem State.withFeed_paint (s : State) (v : FeedReceiver) : (s.withFeed v).paint = s.paint := rfl
@[simp] theorem State.withFeed_frame (s : State) (v : FeedReceiver) : (s.withFeed v).frame = s.frame := rfl
@[simp] theorem State.withFeed_freeIndex (s : State) (v : FeedReceiver) : (s.withFeed v).freeIndex = s.freeIndex := rfl
@[simp] theorem State.withFeed_pending (s : State) (v : FeedReceiver) : (s.withFeed v).pending = s.pending := rfl
@[simp] theorem State.withUnpacker_phase (s : State) (v : Unpacker) : (s.withUnpacker v).phase = s.phase := rfl
@[simp] theorem State.withUnpacker_elapsed (s : State) (v : Unpacker) : (s.withUnpacker v).elapsed = s.elapsed := rfl
@[simp] theorem State.withUnpacker_geometry (s : State) (v : Unpacker) : (s.withUnpacker v).geometry = s.geometry := rfl
@[simp] theorem State.withUnpacker_settings (s : State) (v : Unpacker) : (s.withUnpacker v).settings = s.settings := rfl
@[simp] theorem State.withUnpacker_key (s : State) (v : Unpacker) : (s.withUnpacker v).key = s.key := rfl
@[simp] theorem State.withUnpacker_feed (s : State) (v : Unpacker) : (s.withUnpacker v).feed = s.feed := rfl
@[simp] theorem State.withUnpacker_unpacker (s : State) (v : Unpacker) : (s.withUnpacker v).unpacker = v := rfl
@[simp] theorem State.withUnpacker_results (s : State) (v : Unpacker) : (s.withUnpacker v).results = s.results := rfl
@[simp] theorem State.withUnpacker_time (s : State) (v : Unpacker) : (s.withUnpacker v).time = s.time := rfl
@[simp] theorem State.withUnpacker_board (s : State) (v : Unpacker) : (s.withUnpacker v).board = s.board := rfl
@[simp] theorem State.withUnpacker_table (s : State) (v : Unpacker) : (s.withUnpacker v).table = s.table := rfl
@[simp] theorem State.withUnpacker_dir (s : State) (v : Unpacker) : (s.withUnpacker v).dir = s.dir := rfl
@[simp] theorem State.withUnpacker_paint (s : State) (v : Unpacker) : (s.withUnpacker v).paint = s.paint := rfl
@[simp] theorem State.withUnpacker_frame (s : State) (v : Unpacker) : (s.withUnpacker v).frame = s.frame := rfl
@[simp] theorem State.withUnpacker_freeIndex (s : State) (v : Unpacker) : (s.withUnpacker v).freeIndex = s.freeIndex := rfl
@[simp] theorem State.withUnpacker_pending (s : State) (v : Unpacker) : (s.withUnpacker v).pending = s.pending := rfl
@[simp] theorem State.withResults_phase (s : State) (v : ResultSender) : (s.withResults v).phase = s.phase := rfl
@[simp] theorem State.withResults_elapsed (s : State) (v : ResultSender) : (s.withResults v).elapsed = s.elapsed := rfl
@[simp] theorem State.withResults_geometry (s : State) (v : ResultSender) : (s.withResults v).geometry = s.geometry := rfl
@[simp] theorem State.withResults_settings (s : State) (v : ResultSender) : (s.withResults v).settings = s.settings := rfl
@[simp] theorem State.withResults_key (s : State) (v : ResultSender) : (s.withResults v).key = s.key := rfl
@[simp] theorem State.withResults_feed (s : State) (v : ResultSender) : (s.withResults v).feed = s.feed := rfl
@[simp] theorem State.withResults_unpacker (s : State) (v : ResultSender) : (s.withResults v).unpacker = s.unpacker := rfl
@[simp] theorem State.withResults_results (s : State) (v : ResultSender) : (s.withResults v).results = v := rfl
@[simp] theorem State.withResults_time (s : State) (v : ResultSender) : (s.withResults v).time = s.time := rfl
@[simp] theorem State.withResults_board (s : State) (v : ResultSender) : (s.withResults v).board = s.board := rfl
@[simp] theorem State.withResults_table (s : State) (v : ResultSender) : (s.withResults v).table = s.table := rfl
@[simp] theorem State.withResults_dir (s : State) (v : ResultSender) : (s.withResults v).dir = s.dir := rfl
@[simp] theorem State.withResults_paint (s : State) (v : ResultSender) : (s.withResults v).paint = s.paint := rfl
@[simp] theorem State.withResults_frame (s : State) (v : ResultSender) : (s.withResults v).frame = s.frame := rfl
@[simp] theorem State.withResults_freeIndex (s : State) (v : ResultSender) : (s.withResults v).freeIndex = s.freeIndex := rfl
@[simp] theorem State.withResults_pending (s : State) (v : ResultSender) : (s.withResults v).pending = s.pending := rfl
@[simp] theorem State.withTime_phase (s : State) (v : Timekeeper) : (s.withTime v).phase = s.phase := rfl
@[simp] theorem State.withTime_elapsed (s : State) (v : Timekeeper) : (s.withTime v).elapsed = s.elapsed := rfl
@[simp] theorem State.withTime_geometry (s : State) (v : Timekeeper) : (s.withTime v).geometry = s.geometry := rfl
@[simp] theorem State.withTime_settings (s : State) (v : Timekeeper) : (s.withTime v).settings = s.settings := rfl
@[simp] theorem State.withTime_key (s : State) (v : Timekeeper) : (s.withTime v).key = s.key := rfl
@[simp] theorem State.withTime_feed (s : State) (v : Timekeeper) : (s.withTime v).feed = s.feed := rfl
@[simp] theorem State.withTime_unpacker (s : State) (v : Timekeeper) : (s.withTime v).unpacker = s.unpacker := rfl
@[simp] theorem State.withTime_results (s : State) (v : Timekeeper) : (s.withTime v).results = s.results := rfl
@[simp] theorem State.withTime_time (s : State) (v : Timekeeper) : (s.withTime v).time = v := rfl
@[simp] theorem State.withTime_board (s : State) (v : Timekeeper) : (s.withTime v).board = s.board := rfl
@[simp] theorem State.withTime_table (s : State) (v : Timekeeper) : (s.withTime v).table = s.table := rfl
@[simp] theorem State.withTime_dir (s : State) (v : Timekeeper) : (s.withTime v).dir = s.dir := rfl
@[simp] theorem State.withTime_paint (s : State) (v : Timekeeper) : (s.withTime v).paint = s.paint := rfl
@[simp] theorem State.withTime_frame (s : State) (v : Timekeeper) : (s.withTime v).frame = s.frame := rfl
@[simp] theorem State.withTime_freeIndex (s : State) (v : Timekeeper) : (s.withTime v).freeIndex = s.freeIndex := rfl
@[simp] theorem State.withTime_pending (s : State) (v : Timekeeper) : (s.withTime v).pending = s.pending := rfl
@[simp] theorem State.withBoard_phase (s : State) (v : BoardState) : (s.withBoard v).phase = s.phase := rfl
@[simp] theorem State.withBoard_elapsed (s : State) (v : BoardState) : (s.withBoard v).elapsed = s.elapsed := rfl
@[simp] theorem State.withBoard_geometry (s : State) (v : BoardState) : (s.withBoard v).geometry = s.geometry := rfl
@[simp] theorem State.withBoard_settings (s : State) (v : BoardState) : (s.withBoard v).settings = s.settings := rfl
@[simp] theorem State.withBoard_key (s : State) (v : BoardState) : (s.withBoard v).key = s.key := rfl
@[simp] theorem State.withBoard_feed (s : State) (v : BoardState) : (s.withBoard v).feed = s.feed := rfl
@[simp] theorem State.withBoard_unpacker (s : State) (v : BoardState) : (s.withBoard v).unpacker = s.unpacker := rfl
@[simp] theorem State.withBoard_results (s : State) (v : BoardState) : (s.withBoard v).results = s.results := rfl
@[simp] theorem State.withBoard_time (s : State) (v : BoardState) : (s.withBoard v).time = s.time := rfl
@[simp] theorem State.withBoard_board (s : State) (v : BoardState) : (s.withBoard v).board = v := rfl
@[simp] theorem State.withBoard_table (s : State) (v : BoardState) : (s.withBoard v).table = s.table := rfl
@[simp] theorem State.withBoard_dir (s : State) (v : BoardState) : (s.withBoard v).dir = s.dir := rfl
@[simp] theorem State.withBoard_paint (s : State) (v : BoardState) : (s.withBoard v).paint = s.paint := rfl
@[simp] theorem State.withBoard_frame (s : State) (v : BoardState) : (s.withBoard v).frame = s.frame := rfl
@[simp] theorem State.withBoard_freeIndex (s : State) (v : BoardState) : (s.withBoard v).freeIndex = s.freeIndex := rfl
@[simp] theorem State.withBoard_pending (s : State) (v : BoardState) : (s.withBoard v).pending = s.pending := rfl
@[simp] theorem State.withTable_phase (s : State) (v : Table) : (s.withTable v).phase = s.phase := rfl
@[simp] theorem State.withTable_elapsed (s : State) (v : Table) : (s.withTable v).elapsed = s.elapsed := rfl
@[simp] theorem State.withTable_geometry (s : State) (v : Table) : (s.withTable v).geometry = s.geometry := rfl
@[simp] theorem State.withTable_settings (s : State) (v : Table) : (s.withTable v).settings = s.settings := rfl
@[simp] theorem State.withTable_key (s : State) (v : Table) : (s.withTable v).key = s.key := rfl
@[simp] theorem State.withTable_feed (s : State) (v : Table) : (s.withTable v).feed = s.feed := rfl
@[simp] theorem State.withTable_unpacker (s : State) (v : Table) : (s.withTable v).unpacker = s.unpacker := rfl
@[simp] theorem State.withTable_results (s : State) (v : Table) : (s.withTable v).results = s.results := rfl
@[simp] theorem State.withTable_time (s : State) (v : Table) : (s.withTable v).time = s.time := rfl
@[simp] theorem State.withTable_board (s : State) (v : Table) : (s.withTable v).board = s.board := rfl
@[simp] theorem State.withTable_table (s : State) (v : Table) : (s.withTable v).table = v := rfl
@[simp] theorem State.withTable_dir (s : State) (v : Table) : (s.withTable v).dir = s.dir := rfl
@[simp] theorem State.withTable_paint (s : State) (v : Table) : (s.withTable v).paint = s.paint := rfl
@[simp] theorem State.withTable_frame (s : State) (v : Table) : (s.withTable v).frame = s.frame := rfl
@[simp] theorem State.withTable_freeIndex (s : State) (v : Table) : (s.withTable v).freeIndex = s.freeIndex := rfl
@[simp] theorem State.withTable_pending (s : State) (v : Table) : (s.withTable v).pending = s.pending := rfl
@[simp] theorem State.withDir_phase (s : State) (v : Directory) : (s.withDir v).phase = s.phase := rfl
@[simp] theorem State.withDir_elapsed (s : State) (v : Directory) : (s.withDir v).elapsed = s.elapsed := rfl
@[simp] theorem State.withDir_geometry (s : State) (v : Directory) : (s.withDir v).geometry = s.geometry := rfl
@[simp] theorem State.withDir_settings (s : State) (v : Directory) : (s.withDir v).settings = s.settings := rfl
@[simp] theorem State.withDir_key (s : State) (v : Directory) : (s.withDir v).key = s.key := rfl
@[simp] theorem State.withDir_feed (s : State) (v : Directory) : (s.withDir v).feed = s.feed := rfl
@[simp] theorem State.withDir_unpacker (s : State) (v : Directory) : (s.withDir v).unpacker = s.unpacker := rfl
@[simp] theorem State.withDir_results (s : State) (v : Directory) : (s.withDir v).results = s.results := rfl
@[simp] theorem State.withDir_time (s : State) (v : Directory) : (s.withDir v).time = s.time := rfl
@[simp] theorem State.withDir_board (s : State) (v : Directory) : (s.withDir v).board = s.board := rfl
@[simp] theorem State.withDir_table (s : State) (v : Directory) : (s.withDir v).table = s.table := rfl
@[simp] theorem State.withDir_dir (s : State) (v : Directory) : (s.withDir v).dir = v := rfl
@[simp] theorem State.withDir_paint (s : State) (v : Directory) : (s.withDir v).paint = s.paint := rfl
@[simp] theorem State.withDir_frame (s : State) (v : Directory) : (s.withDir v).frame = s.frame := rfl
@[simp] theorem State.withDir_freeIndex (s : State) (v : Directory) : (s.withDir v).freeIndex = s.freeIndex := rfl
@[simp] theorem State.withDir_pending (s : State) (v : Directory) : (s.withDir v).pending = s.pending := rfl
@[simp] theorem State.withPaint_phase (s : State) (v : Paint) : (s.withPaint v).phase = s.phase := rfl
@[simp] theorem State.withPaint_elapsed (s : State) (v : Paint) : (s.withPaint v).elapsed = s.elapsed := rfl
@[simp] theorem State.withPaint_geometry (s : State) (v : Paint) : (s.withPaint v).geometry = s.geometry := rfl
@[simp] theorem State.withPaint_settings (s : State) (v : Paint) : (s.withPaint v).settings = s.settings := rfl
@[simp] theorem State.withPaint_key (s : State) (v : Paint) : (s.withPaint v).key = s.key := rfl
@[simp] theorem State.withPaint_feed (s : State) (v : Paint) : (s.withPaint v).feed = s.feed := rfl
@[simp] theorem State.withPaint_unpacker (s : State) (v : Paint) : (s.withPaint v).unpacker = s.unpacker := rfl
@[simp] theorem State.withPaint_results (s : State) (v : Paint) : (s.withPaint v).results = s.results := rfl
@[simp] theorem State.withPaint_time (s : State) (v : Paint) : (s.withPaint v).time = s.time := rfl
@[simp] theorem State.withPaint_board (s : State) (v : Paint) : (s.withPaint v).board = s.board := rfl
@[simp] theorem State.withPaint_table (s : State) (v : Paint) : (s.withPaint v).table = s.table := rfl
@[simp] theorem State.withPaint_dir (s : State) (v : Paint) : (s.withPaint v).dir = s.dir := rfl
@[simp] theorem State.withPaint_paint (s : State) (v : Paint) : (s.withPaint v).paint = v := rfl
@[simp] theorem State.withPaint_frame (s : State) (v : Paint) : (s.withPaint v).frame = s.frame := rfl
@[simp] theorem State.withPaint_freeIndex (s : State) (v : Paint) : (s.withPaint v).freeIndex = s.freeIndex := rfl
@[simp] theorem State.withPaint_pending (s : State) (v : Paint) : (s.withPaint v).pending = s.pending := rfl
@[simp] theorem State.withFrame_phase (s : State) (v : FrameStore) : (s.withFrame v).phase = s.phase := rfl
@[simp] theorem State.withFrame_elapsed (s : State) (v : FrameStore) : (s.withFrame v).elapsed = s.elapsed := rfl
@[simp] theorem State.withFrame_geometry (s : State) (v : FrameStore) : (s.withFrame v).geometry = s.geometry := rfl
@[simp] theorem State.withFrame_settings (s : State) (v : FrameStore) : (s.withFrame v).settings = s.settings := rfl
@[simp] theorem State.withFrame_key (s : State) (v : FrameStore) : (s.withFrame v).key = s.key := rfl
@[simp] theorem State.withFrame_feed (s : State) (v : FrameStore) : (s.withFrame v).feed = s.feed := rfl
@[simp] theorem State.withFrame_unpacker (s : State) (v : FrameStore) : (s.withFrame v).unpacker = s.unpacker := rfl
@[simp] theorem State.withFrame_results (s : State) (v : FrameStore) : (s.withFrame v).results = s.results := rfl
@[simp] theorem State.withFrame_time (s : State) (v : FrameStore) : (s.withFrame v).time = s.time := rfl
@[simp] theorem State.withFrame_board (s : State) (v : FrameStore) : (s.withFrame v).board = s.board := rfl
@[simp] theorem State.withFrame_table (s : State) (v : FrameStore) : (s.withFrame v).table = s.table := rfl
@[simp] theorem State.withFrame_dir (s : State) (v : FrameStore) : (s.withFrame v).dir = s.dir := rfl
@[simp] theorem State.withFrame_paint (s : State) (v : FrameStore) : (s.withFrame v).paint = s.paint := rfl
@[simp] theorem State.withFrame_frame (s : State) (v : FrameStore) : (s.withFrame v).frame = v := rfl
@[simp] theorem State.withFrame_freeIndex (s : State) (v : FrameStore) : (s.withFrame v).freeIndex = s.freeIndex := rfl
@[simp] theorem State.withFrame_pending (s : State) (v : FrameStore) : (s.withFrame v).pending = s.pending := rfl
@[simp] theorem State.withFreeIndex_phase (s : State) (v : Nat) : (s.withFreeIndex v).phase = s.phase := rfl
@[simp] theorem State.withFreeIndex_elapsed (s : State) (v : Nat) : (s.withFreeIndex v).elapsed = s.elapsed := rfl
@[simp] theorem State.withFreeIndex_geometry (s : State) (v : Nat) : (s.withFreeIndex v).geometry = s.geometry := rfl
@[simp] theorem State.withFreeIndex_settings (s : State) (v : Nat) : (s.withFreeIndex v).settings = s.settings := rfl
@[simp] theorem State.withFreeIndex_key (s : State) (v : Nat) : (s.withFreeIndex v).key = s.key := rfl
@[simp] theorem State.withFreeIndex_feed (s : State) (v : Nat) : (s.withFreeIndex v).feed = s.feed := rfl
@[simp] theorem State.withFreeIndex_unpacker (s : State) (v : Nat) : (s.withFreeIndex v).unpacker = s.unpacker := rfl
@[simp] theorem State.withFreeIndex_results (s : State) (v : Nat) : (s.withFreeIndex v).results = s.results := rfl
@[simp] theorem State.withFreeIndex_time (s : State) (v : Nat) : (s.withFreeIndex v).time = s.time := rfl
@[simp] theorem State.withFreeIndex_board (s : State) (v : Nat) : (s.withFreeIndex v).board = s.board := rfl
@[simp] theorem State.withFreeIndex_table (s : State) (v : Nat) : (s.withFreeIndex v).table = s.table := rfl
@[simp] theorem State.withFreeIndex_dir (s : State) (v : Nat) : (s.withFreeIndex v).dir = s.dir := rfl
@[simp] theorem State.withFreeIndex_paint (s : State) (v : Nat) : (s.withFreeIndex v).paint = s.paint := rfl
@[simp] theorem State.withFreeIndex_frame (s : State) (v : Nat) : (s.withFreeIndex v).frame = s.frame := rfl
@[simp] theorem State.withFreeIndex_freeIndex (s : State) (v : Nat) : (s.withFreeIndex v).freeIndex = v := rfl
@[simp] theorem State.withFreeIndex_pending (s : State) (v : Nat) : (s.withFreeIndex v).pending = s.pending := rfl
@[simp] theorem State.withPending_phase (s : State) (v : List Instr) : (s.withPending v).phase = s.phase := rfl
@[simp] theorem State.withPending_elapsed (s : State) (v : List Instr) : (s.withPending v).elapsed = s.elapsed := rfl
@[simp] theorem State.withPending_geometry (s : State) (v : List Instr) : (s.withPending v).geometry = s.geometry := rfl
@[simp] theorem State.withPending_settings (s : State) (v : List Instr) : (s.withPending v).settings = s.settings := rfl
@[simp] theorem State.withPending_key (s : State) (v : List Instr) : (s.withPending v).key = s.key := rfl
@[simp] theorem State.withPending_feed (s : State) (v : List Instr) : (s.withPending v).feed = s.feed := rfl
@[simp] theorem State.withPending_unpacker (s : State) (v : List Instr) : (s.withPending v).unpacker = s.unpacker := rfl
@[simp] theorem State.withPending_results (s : State) (v : List Instr) : (s.withPending v).results = s.results := rfl
@[simp] theorem State.withPending_time (s : State) (v : List Instr) : (s.withPending v).time = s.time := rfl
@[simp] theorem State.withPending_board (s : State) (v : List Instr) : (s.withPending v).board = s.board := rfl
@[simp] theorem State.withPending_table (s : State) (v : List Instr) : (s.withPending v).table = s.table := rfl
@[simp] theorem State.withPending_dir (s : State) (v : List Instr) : (s.withPending v).dir = s.dir := rfl
@[simp] theorem State.withPending_paint (s : State) (v : List Instr) : (s.withPending v).paint = s.paint := rfl
@[simp] theorem State.withPending_frame (s : State) (v : List Instr) : (s.withPending v).frame = s.frame := rfl
@[simp] theorem State.withPending_freeIndex (s : State) (v : List Instr) : (s.withPending v).freeIndex = s.freeIndex := rfl
@[simp] theorem State.withPending_pending (s : State) (v : List Instr) : (s.withPending v).pending = v := rfl

end Sys2Proof.Machine
end

