-- ==== Sys2Proof/Laws/Arbiter.lean ====
section
/-! SUPPORT. What the arbiter's part of an event leaves alone: `settle` touches the dirty line set, the requests, the arbiter,
the suspend request, the bank report, and the directory's operation state with its erase-begun marks, and nothing else. -/

namespace Sys2Proof.Machine

/-- Everything but what the arbiter's part of an event may change reads the same. -/
def ArbiterLeaves (s t : State) : Prop :=
    t.phase = s.phase ∧ t.elapsed = s.elapsed ∧ t.geometry = s.geometry ∧
    t.settings = s.settings ∧ t.key = s.key ∧ t.feed = s.feed ∧
    t.unpacker = s.unpacker ∧ t.results = s.results ∧ t.time = s.time ∧
    t.board = s.board ∧ t.table = s.table ∧ t.frame = s.frame ∧
    t.freeIndex = s.freeIndex ∧ t.pending = s.pending ∧ t.dir.storage = s.dir.storage ∧
    t.dir.lockFlags = s.dir.lockFlags ∧ t.dir.slotStates = s.dir.slotStates ∧ t.dir.counts = s.dir.counts ∧
    t.dir.locks = s.dir.locks ∧ t.paint.hold = s.paint.hold ∧ t.paint.banner = s.paint.banner ∧
    t.paint.callingScroll = s.paint.callingScroll ∧ t.paint.bannerScroll = s.paint.bannerScroll ∧ t.paint.layouts = s.paint.layouts

theorem ArbiterLeaves.refl (s : State) : ArbiterLeaves s s := by simp [ArbiterLeaves]

theorem ArbiterLeaves.trans {s t u : State} (h1 : ArbiterLeaves s t) (h2 : ArbiterLeaves t u) : ArbiterLeaves s u := by
  unfold ArbiterLeaves at *
  simp_all

theorem reportBanks_leaves (s : State) : ArbiterLeaves s (reportBanks s) := by simp [ArbiterLeaves, reportBanks]

theorem directoryRaise_leaves (s : State) : ArbiterLeaves s (directoryRaise s) := by
  unfold directoryRaise; split
  · split
    · simp [ArbiterLeaves]
    · exact .refl s
  · exact .refl s

theorem directoryWithdraw_leaves (s : State) : ArbiterLeaves s (directoryWithdraw s) := by
  unfold directoryWithdraw startErasing; split
  · simp [ArbiterLeaves]
  · exact .refl s

theorem setRequest_leaves (s : State) (b : Bool) :
    ArbiterLeaves s (s.withPaint { s.paint with suspendRequest := b }) := by simp [ArbiterLeaves]

theorem judgeRequest_leaves (s : State) : ArbiterLeaves s (judgeRequest s) := by
  have h0 := reportBanks_leaves s
  unfold judgeRequest; dsimp only; split <;> split
  · exact (h0.trans (setRequest_leaves _ _)).trans ((directoryWithdraw_leaves _).trans (reportBanks_leaves _))
  · exact h0
  · exact (h0.trans (setRequest_leaves _ _)).trans ((directoryRaise_leaves _).trans (reportBanks_leaves _))
  · exact h0

theorem grant_leaves (slot : Slot) (s : State) : ArbiterLeaves s (grant slot s) := by
  cases slot <;> simp only [grant, busyWith] <;> (try split) <;> simp [ArbiterLeaves]

theorem decideGrant_leaves (s : State) : ArbiterLeaves s (decideGrant s) := by
  unfold decideGrant; split
  · exact .refl s
  · split
    · exact grant_leaves _ s
    · exact .refl s

/-- The end of an event leaves everything but the arbiter's own parts. -/
theorem settle_leaves (s : State) : ArbiterLeaves s (settle s) :=
  (judgeRequest_leaves s).trans ((decideGrant_leaves _).trans (judgeRequest_leaves _))

@[simp] theorem settle_phase (s : State) : (settle s).phase = s.phase := (settle_leaves s).1
@[simp] theorem settle_elapsed (s : State) : (settle s).elapsed = s.elapsed := (settle_leaves s).2.1
@[simp] theorem settle_geometry (s : State) : (settle s).geometry = s.geometry := (settle_leaves s).2.2.1
@[simp] theorem settle_settings (s : State) : (settle s).settings = s.settings := (settle_leaves s).2.2.2.1
@[simp] theorem settle_key (s : State) : (settle s).key = s.key := (settle_leaves s).2.2.2.2.1
@[simp] theorem settle_feed (s : State) : (settle s).feed = s.feed := (settle_leaves s).2.2.2.2.2.1
@[simp] theorem settle_unpacker (s : State) : (settle s).unpacker = s.unpacker := (settle_leaves s).2.2.2.2.2.2.1
@[simp] theorem settle_results (s : State) : (settle s).results = s.results := (settle_leaves s).2.2.2.2.2.2.2.1
@[simp] theorem settle_time (s : State) : (settle s).time = s.time := (settle_leaves s).2.2.2.2.2.2.2.2.1
@[simp] theorem settle_board (s : State) : (settle s).board = s.board := (settle_leaves s).2.2.2.2.2.2.2.2.2.1
@[simp] theorem settle_table (s : State) : (settle s).table = s.table := (settle_leaves s).2.2.2.2.2.2.2.2.2.2.1
@[simp] theorem settle_frame (s : State) : (settle s).frame = s.frame := (settle_leaves s).2.2.2.2.2.2.2.2.2.2.2.1
@[simp] theorem settle_freeIndex (s : State) : (settle s).freeIndex = s.freeIndex := (settle_leaves s).2.2.2.2.2.2.2.2.2.2.2.2.1
@[simp] theorem settle_pending (s : State) : (settle s).pending = s.pending := (settle_leaves s).2.2.2.2.2.2.2.2.2.2.2.2.2.1
@[simp] theorem settle_dir_storage (s : State) : (settle s).dir.storage = s.dir.storage := (settle_leaves s).2.2.2.2.2.2.2.2.2.2.2.2.2.2.1
@[simp] theorem settle_dir_lockFlags (s : State) : (settle s).dir.lockFlags = s.dir.lockFlags := (settle_leaves s).2.2.2.2.2.2.2.2.2.2.2.2.2.2.2.1
@[simp] theorem settle_dir_slotStates (s : State) : (settle s).dir.slotStates = s.dir.slotStates := (settle_leaves s).2.2.2.2.2.2.2.2.2.2.2.2.2.2.2.2.1
@[simp] theorem settle_dir_counts (s : State) : (settle s).dir.counts = s.dir.counts := (settle_leaves s).2.2.2.2.2.2.2.2.2.2.2.2.2.2.2.2.2.1
@[simp] theorem settle_dir_locks (s : State) : (settle s).dir.locks = s.dir.locks := (settle_leaves s).2.2.2.2.2.2.2.2.2.2.2.2.2.2.2.2.2.2.1
@[simp] theorem settle_paint_hold (s : State) : (settle s).paint.hold = s.paint.hold := (settle_leaves s).2.2.2.2.2.2.2.2.2.2.2.2.2.2.2.2.2.2.2.1
@[simp] theorem settle_paint_banner (s : State) : (settle s).paint.banner = s.paint.banner := (settle_leaves s).2.2.2.2.2.2.2.2.2.2.2.2.2.2.2.2.2.2.2.2.1
@[simp] theorem settle_paint_callingScroll (s : State) : (settle s).paint.callingScroll = s.paint.callingScroll := (settle_leaves s).2.2.2.2.2.2.2.2.2.2.2.2.2.2.2.2.2.2.2.2.2.1
@[simp] theorem settle_paint_bannerScroll (s : State) : (settle s).paint.bannerScroll = s.paint.bannerScroll := (settle_leaves s).2.2.2.2.2.2.2.2.2.2.2.2.2.2.2.2.2.2.2.2.2.2.1
@[simp] theorem settle_paint_layouts (s : State) : (settle s).paint.layouts = s.paint.layouts := (settle_leaves s).2.2.2.2.2.2.2.2.2.2.2.2.2.2.2.2.2.2.2.2.2.2.2

end Sys2Proof.Machine
end

