-- ==== Sys2Proof/Laws/Sets.lean ====
section
/-! SUPPORT. Laws of sets of numbers and of tables over place numbers: reading after writing, and that every operation keeps the
canonical form. -/

namespace Sys2Proof.Machine

/-! ### Sets of numbers -/

@[simp] theorem mem_setInsert {a b : Nat} {s : List Nat} : b ∈ setInsert a s ↔ b = a ∨ b ∈ s := by
  induction s with
  | nil => simp [setInsert]
  | cons c r ih =>
    unfold setInsert
    split
    · simp
    · split
      · next h => subst h; simp
      · simp [ih]; tauto

theorem setInsert_sorted {a : Nat} {s : List Nat} (h : s.Pairwise (· < ·)) : (setInsert a s).Pairwise (· < ·) := by
  induction s with
  | nil => simp [setInsert]
  | cons c r ih =>
    have hc : ∀ {x}, x ∈ r → c < x := List.rel_of_pairwise_cons h
    have hr := List.Pairwise.of_cons h
    unfold setInsert
    split
    · next hac => exact List.Pairwise.cons (fun x hx => by
        rcases List.mem_cons.1 hx with rfl | hx
        · exact hac
        · exact hac.trans (hc hx)) h
    · split
      · exact h
      · next h1 h2 =>
        refine List.Pairwise.cons (fun x hx => ?_) (ih hr)
        rcases mem_setInsert.1 hx with rfl | hx
        · omega
        · exact hc hx

@[simp] theorem mem_setInsertAll {b : Nat} {l s : List Nat} : b ∈ setInsertAll l s ↔ b ∈ l ∨ b ∈ s := by
  unfold setInsertAll
  induction l generalizing s with
  | nil => simp
  | cons a r ih => simp [ih]; tauto

theorem setInsertAll_sorted {l s : List Nat} (h : s.Pairwise (· < ·)) : (setInsertAll l s).Pairwise (· < ·) := by
  unfold setInsertAll
  induction l generalizing s with
  | nil => simpa
  | cons a r ih => simpa using ih (setInsert_sorted h)

@[simp] theorem setInsertAll_nil (s : List Nat) : setInsertAll [] s = s := rfl

theorem mem_setRemoveAll {b : Nat} {l s : List Nat} : b ∈ setRemoveAll l s ↔ b ∈ s ∧ b ∉ l := by
  simp [setRemoveAll]

theorem setRemoveAll_sorted {l s : List Nat} (h : s.Pairwise (· < ·)) : (setRemoveAll l s).Pairwise (· < ·) :=
  h.filter _

/-- Two sets in rising order with the same members are equal. -/
theorem sorted_ext {s t : List Nat} (hs : s.Pairwise (· < ·)) (ht : t.Pairwise (· < ·)) (h : ∀ a, a ∈ s ↔ a ∈ t) :
    s = t := by
  have hn : s.Nodup := hs.imp (fun h => Nat.ne_of_lt h)
  have hm : t.Nodup := ht.imp (fun h => Nat.ne_of_lt h)
  exact ((List.perm_ext_iff_of_nodup hn hm).2 h).eq_of_pairwise (fun a b _ _ h1 h2 => absurd h1 (Nat.lt_asymm h2)) hs ht

/-! ### Tables over place numbers -/

section Cells

variable {α : Type} [DecidableEq α] {d : α} {hi lo : Nat}

theorem cellsFrom_cons {a : Nat} {v : α} {r : List (Nat × α)} :
    cellsFrom d hi lo ((a, v) :: r) = true ↔ lo ≤ a ∧ a < hi ∧ v ≠ d ∧ cellsFrom d hi (a + 1) r = true := by
  simp [cellsFrom, and_assoc]

theorem cellsFrom_mono {m : List (Nat × α)} {lo' : Nat} (hle : lo' ≤ lo) (h : cellsFrom d hi lo m = true) :
    cellsFrom d hi lo' m = true := by
  cases m with
  | nil => rfl
  | cons c r =>
    obtain ⟨a, v⟩ := c
    rw [cellsFrom_cons] at h ⊢
    exact ⟨hle.trans h.1, h.2⟩

/-- Below its first address a table reads the default. -/
theorem cellGet_below {m : List (Nat × α)} (h : cellsFrom d hi lo m = true) {a : Nat} (ha : a < lo) :
    cellGet d m a = d := by
  induction m generalizing lo with
  | nil => rfl
  | cons c r ih =>
    obtain ⟨b, v⟩ := c
    rw [cellsFrom_cons] at h
    have : a ≠ b := by omega
    simp [cellGet, this, ih h.2.2.2 (by omega)]

/-- From its bound on a table reads the default. -/
theorem cellGet_above {m : List (Nat × α)} (h : cellsFrom d hi lo m = true) {a : Nat} (ha : hi ≤ a) :
    cellGet d m a = d := by
  induction m generalizing lo with
  | nil => rfl
  | cons c r ih =>
    obtain ⟨b, v⟩ := c
    rw [cellsFrom_cons] at h
    have : a ≠ b := by omega
    simp [cellGet, this, ih h.2.2.2]

/-- Reading after writing: the address written reads the value, every other as before. -/
theorem cellGet_cellSet {m : List (Nat × α)} (h : cellsFrom d hi lo m = true) (a : Nat) (v : α) (b : Nat) :
    cellGet d (cellSet d m a v) b = if b = a then v else cellGet d m b := by
  induction m generalizing lo with
  | nil =>
    unfold cellSet
    split
    · next hv => subst hv; simp [cellGet]
    · simp [cellGet]
  | cons c r ih =>
    obtain ⟨k, w⟩ := c
    rw [cellsFrom_cons] at h
    have hr := h.2.2.2
    unfold cellSet
    by_cases h1 : a < k
    · have hbelow : cellGet d ((k, w) :: r) a = d := by
        have : a ≠ k := by omega
        simp [cellGet, this, cellGet_below hr (show a < k + 1 by omega)]
      simp only [h1, if_true]
      by_cases hv : v = d
      · simp only [hv, if_true]
        by_cases hb : b = a
        · subst hb; simp [hbelow]
        · simp [hb]
      · simp only [hv, if_false]
        by_cases hb : b = a
        · simp [cellGet, hb]
        · simp [cellGet, hb]
    · simp only [h1, if_false]
      by_cases h2 : a = k
      · subst h2
        simp only [if_true]
        by_cases hv : v = d
        · simp only [hv, if_true]
          by_cases hb : b = a
          · subst hb; simp [cellGet_below hr (show b < b + 1 by omega)]
          · simp [cellGet, hb]
        · simp only [hv, if_false]
          by_cases hb : b = a
          · simp [cellGet, hb]
          · simp [cellGet, hb]
      · simp only [h2, if_false]
        by_cases hb : b = k
        · have : b ≠ a := fun h => h2 (h.symm.trans hb)
          simp [cellGet, hb, Ne.symm h2]
        · simp [cellGet, hb, ih hr]

theorem cellSet_canonical {m : List (Nat × α)} (h : cellsFrom d hi lo m = true) {a : Nat} {v : α} (hlo : lo ≤ a)
    (hhi : a < hi) : cellsFrom d hi lo (cellSet d m a v) = true := by
  induction m generalizing lo with
  | nil =>
    unfold cellSet
    split
    · rfl
    · next hv => exact cellsFrom_cons.2 ⟨hlo, hhi, hv, rfl⟩
  | cons c r ih =>
    obtain ⟨k, w⟩ := c
    have hc := cellsFrom_cons.1 h
    unfold cellSet
    split
    · split
      · exact h
      · next h1 hv => exact cellsFrom_cons.2 ⟨hlo, hhi, hv, cellsFrom_cons.2 ⟨by omega, hc.2⟩⟩
    · split
      · next h1 h2 =>
        subst h2
        split
        · exact cellsFrom_mono (by omega) hc.2.2.2
        · next hv => exact cellsFrom_cons.2 ⟨hlo, hhi, hv, hc.2.2.2⟩
      · next h1 h2 => exact cellsFrom_cons.2 ⟨hc.1, hc.2.1, hc.2.2.1, ih hc.2.2.2 (by omega)⟩

theorem cellClear_canonical {m : List (Nat × α)} (h : cellsFrom d hi lo m = true) (p q : Nat) :
    cellsFrom d hi lo (cellClear p q m) = true := by
  induction m generalizing lo with
  | nil => rfl
  | cons c r ih =>
    obtain ⟨k, w⟩ := c
    have hc := cellsFrom_cons.1 h
    by_cases hk : p ≤ k ∧ k < q
    · have : cellClear p q ((k, w) :: r) = cellClear p q r := by simp [cellClear, hk]
      rw [this]
      exact ih (cellsFrom_mono (by omega) hc.2.2.2)
    · have : cellClear p q ((k, w) :: r) = (k, w) :: cellClear p q r := by
        unfold cellClear; rw [List.filter_cons_of_pos]; simp; omega
      rw [this]
      exact cellsFrom_cons.2 ⟨hc.1, hc.2.1, hc.2.2.1, ih hc.2.2.2⟩

/-- Clearing a range returns its addresses to the default and leaves the others (R81). -/
theorem cellGet_cellClear {m : List (Nat × α)} (h : cellsFrom d hi lo m = true) (p q b : Nat) :
    cellGet d (cellClear p q m) b = if p ≤ b ∧ b < q then d else cellGet d m b := by
  induction m generalizing lo with
  | nil => simp [cellClear, cellGet]
  | cons c r ih =>
    obtain ⟨k, w⟩ := c
    have hc := cellsFrom_cons.1 h
    by_cases hk : p ≤ k ∧ k < q
    · have : cellClear p q ((k, w) :: r) = cellClear p q r := by simp [cellClear, hk]
      rw [this, ih hc.2.2.2]
      by_cases hb : b = k
      · subst hb; simp [hk]
      · simp [cellGet, hb]
    · have : cellClear p q ((k, w) :: r) = (k, w) :: cellClear p q r := by
        unfold cellClear; rw [List.filter_cons_of_pos]; simp; omega
      rw [this]
      by_cases hb : b = k
      · subst hb; simp [cellGet, hk]
      · simp [cellGet, hb, ih hc.2.2.2]

theorem cellFill_canonical {m : List (Nat × α)} (h : cellsFrom d hi lo m = true) {p n : Nat} {v : α} (hlo : lo ≤ p)
    (hhi : p + n ≤ hi) : cellsFrom d hi lo (cellFill d p n v m) = true := by
  induction n with
  | zero => simpa [cellFill] using h
  | succ n ih =>
    have hs : cellFill d p (n + 1) v m = cellSet d (cellFill d p n v m) (p + n) v := by
      simp [cellFill, List.range_succ, List.foldl_append]
    rw [hs]
    exact cellSet_canonical (ih (by omega)) (by omega) (by omega)

/-- Filling a range gives each of its addresses the value and leaves the others (R93, R95). -/
theorem cellGet_cellFill {m : List (Nat × α)} (h : cellsFrom d hi lo m = true) {p n : Nat} {v : α} (hlo : lo ≤ p)
    (hhi : p + n ≤ hi) (b : Nat) :
    cellGet d (cellFill d p n v m) b = if p ≤ b ∧ b < p + n then v else cellGet d m b := by
  induction n with
  | zero =>
    have : ¬ (p ≤ b ∧ b < p) := by omega
    simp [cellFill, this]
  | succ n ih =>
    have hs : cellFill d p (n + 1) v m = cellSet d (cellFill d p n v m) (p + n) v := by
      simp [cellFill, List.range_succ, List.foldl_append]
    rw [hs, cellGet_cellSet (cellFill_canonical h hlo (by omega)), ih (by omega)]
    by_cases hb : b = p + n
    · subst hb; simp
    · by_cases hr : p ≤ b ∧ b < p + n
      · have h2 : p ≤ b ∧ b < p + (n + 1) := by omega
        simp [hb, hr, h2]
      · have h2 : ¬ (p ≤ b ∧ b < p + (n + 1)) := by omega
        simp only [hb, hr, h2, if_false]

/-- Two tables in canonical form that read alike are equal data. -/
theorem cells_ext {m n : List (Nat × α)} (hm : cellsFrom d hi lo m = true) (hn : cellsFrom d hi lo n = true)
    (h : ∀ a, cellGet d m a = cellGet d n a) : m = n := by
  induction m generalizing lo n with
  | nil =>
    cases n with
    | nil => rfl
    | cons c r =>
      obtain ⟨k, w⟩ := c
      have := h k
      simp [cellGet] at this
      exact absurd this.symm (cellsFrom_cons.1 hn).2.2.1
  | cons c r ih =>
    obtain ⟨k, w⟩ := c
    have hc := cellsFrom_cons.1 hm
    cases n with
    | nil =>
      have := h k
      simp [cellGet] at this
      exact absurd this hc.2.2.1
    | cons c' r' =>
      obtain ⟨k', w'⟩ := c'
      have hc' := cellsFrom_cons.1 hn
      have hk : k = k' := by
        by_contra hne
        rcases Nat.lt_or_gt_of_ne hne with hlt | hgt
        · have h1 := h k
          have hb := cellGet_below hc'.2.2.2 (show k < k' + 1 by omega)
          simp [cellGet, hne, hb] at h1
          exact hc.2.2.1 h1
        · have h1 := h k'
          have hb := cellGet_below hc.2.2.2 (show k' < k + 1 by omega)
          simp [cellGet, Ne.symm hne, hb] at h1
          exact hc'.2.2.1 h1.symm
      subst hk
      have hw : w = w' := by simpa [cellGet] using h k
      subst hw
      congr 1
      refine ih hc.2.2.2 hc'.2.2.2 (fun a => ?_)
      by_cases ha : a = k
      · subst ha
        rw [cellGet_below hc.2.2.2 (by omega), cellGet_below hc'.2.2.2 (by omega)]
      · simpa [cellGet, ha] using h a

end Cells

end Sys2Proof.Machine
end

