-- ==== Sys2Proof/Laws/Ops.lean ====
section
/-! SUPPORT. The shared operations on results, line marks and the Service Table: what each does, said once, and what each leaves
alone. -/

namespace Sys2Proof.Machine

/-! ### Results -/

/-- What entering an entry does (R182). -/
theorem enqueue_results (e : Entry) (s : State) :
    (enqueue e s).results = if s.results.queue.length < 16 then { s.results with queue := s.results.queue ++ [e] }
      else { s.results with lost := true } := by
  unfold enqueue queueLimit; split <;> rfl

/-- What answering a message does (R177, R181). -/
theorem answer_answered (kind : Byte) (h : Header) (outcome detail : Nat) (s : State) :
    Answered kind h outcome detail s (answer kind h outcome detail s) := by
  unfold Answered answer
  split
  · rw [enqueue_results]
  · rfl

@[simp] theorem enqueue_phase (e : Entry) (s : State) :
    (enqueue e s).phase = s.phase := by
  unfold enqueue; split <;> rfl
@[simp] theorem enqueue_elapsed (e : Entry) (s : State) :
    (enqueue e s).elapsed = s.elapsed := by
  unfold enqueue; split <;> rfl
@[simp] theorem enqueue_geometry (e : Entry) (s : State) :
    (enqueue e s).geometry = s.geometry := by
  unfold enqueue; split <;> rfl
@[simp] theorem enqueue_settings (e : Entry) (s : State) :
    (enqueue e s).settings = s.settings := by
  unfold enqueue; split <;> rfl
@[simp] theorem enqueue_key (e : Entry) (s : State) :
    (enqueue e s).key = s.key := by
  unfold enqueue; split <;> rfl
@[simp] theorem enqueue_feed (e : Entry) (s : State) :
    (enqueue e s).feed = s.feed := by
  unfold enqueue; split <;> rfl
@[simp] theorem enqueue_unpacker (e : Entry) (s : State) :
    (enqueue e s).unpacker = s.unpacker := by
  unfold enqueue; split <;> rfl
@[simp] theorem enqueue_time (e : Entry) (s : State) :
    (enqueue e s).time = s.time := by
  unfold enqueue; split <;> rfl
@[simp] theorem enqueue_board (e : Entry) (s : State) :
    (enqueue e s).board = s.board := by
  unfold enqueue; split <;> rfl
@[simp] theorem enqueue_table (e : Entry) (s : State) :
    (enqueue e s).table = s.table := by
  unfold enqueue; split <;> rfl
@[simp] theorem enqueue_dir (e : Entry) (s : State) :
    (enqueue e s).dir = s.dir := by
  unfold enqueue; split <;> rfl
@[simp] theorem enqueue_paint (e : Entry) (s : State) :
    (enqueue e s).paint = s.paint := by
  unfold enqueue; split <;> rfl
@[simp] theorem enqueue_frame (e : Entry) (s : State) :
    (enqueue e s).frame = s.frame := by
  unfold enqueue; split <;> rfl
@[simp] theorem enqueue_freeIndex (e : Entry) (s : State) :
    (enqueue e s).freeIndex = s.freeIndex := by
  unfold enqueue; split <;> rfl
@[simp] theorem enqueue_pending (e : Entry) (s : State) :
    (enqueue e s).pending = s.pending := by
  unfold enqueue; split <;> rfl

@[simp] theorem answer_phase (k : Byte) (h : Header) (o d : Nat) (s : State) :
    (answer k h o d s).phase = s.phase := by
  unfold answer; split <;> simp
@[simp] theorem answer_elapsed (k : Byte) (h : Header) (o d : Nat) (s : State) :
    (answer k h o d s).elapsed = s.elapsed := by
  unfold answer; split <;> simp
@[simp] theorem answer_geometry (k : Byte) (h : Header) (o d : Nat) (s : State) :
    (answer k h o d s).geometry = s.geometry := by
  unfold answer; split <;> simp
@[simp] theorem answer_settings (k : Byte) (h : Header) (o d : Nat) (s : State) :
    (answer k h o d s).settings = s.settings := by
  unfold answer; split <;> simp
@[simp] theorem answer_key (k : Byte) (h : Header) (o d : Nat) (s : State) :
    (answer k h o d s).key = s.key := by
  unfold answer; split <;> simp
@[simp] theorem answer_feed (k : Byte) (h : Header) (o d : Nat) (s : State) :
    (answer k h o d s).feed = s.feed := by
  unfold answer; split <;> simp
@[simp] theorem answer_unpacker (k : Byte) (h : Header) (o d : Nat) (s : State) :
    (answer k h o d s).unpacker = s.unpacker := by
  unfold answer; split <;> simp
@[simp] theorem answer_time (k : Byte) (h : Header) (o d : Nat) (s : State) :
    (answer k h o d s).time = s.time := by
  unfold answer; split <;> simp
@[simp] theorem answer_board (k : Byte) (h : Header) (o d : Nat) (s : State) :
    (answer k h o d s).board = s.board := by
  unfold answer; split <;> simp
@[simp] theorem answer_table (k : Byte) (h : Header) (o d : Nat) (s : State) :
    (answer k h o d s).table = s.table := by
  unfold answer; split <;> simp
@[simp] theorem answer_dir (k : Byte) (h : Header) (o d : Nat) (s : State) :
    (answer k h o d s).dir = s.dir := by
  unfold answer; split <;> simp
@[simp] theorem answer_paint (k : Byte) (h : Header) (o d : Nat) (s : State) :
    (answer k h o d s).paint = s.paint := by
  unfold answer; split <;> simp
@[simp] theorem answer_frame (k : Byte) (h : Header) (o d : Nat) (s : State) :
    (answer k h o d s).frame = s.frame := by
  unfold answer; split <;> simp
@[simp] theorem answer_freeIndex (k : Byte) (h : Header) (o d : Nat) (s : State) :
    (answer k h o d s).freeIndex = s.freeIndex := by
  unfold answer; split <;> simp
@[simp] theorem answer_pending (k : Byte) (h : Header) (o d : Nat) (s : State) :
    (answer k h o d s).pending = s.pending := by
  unfold answer; split <;> simp

@[simp] theorem answerRead_phase (k : Byte) (h : Header) (o d : Nat) (s : State) :
    (answerRead k h o d s).phase = s.phase := by
  simp [answerRead]
@[simp] theorem answerRead_elapsed (k : Byte) (h : Header) (o d : Nat) (s : State) :
    (answerRead k h o d s).elapsed = s.elapsed := by
  simp [answerRead]
@[simp] theorem answerRead_geometry (k : Byte) (h : Header) (o d : Nat) (s : State) :
    (answerRead k h o d s).geometry = s.geometry := by
  simp [answerRead]
@[simp] theorem answerRead_settings (k : Byte) (h : Header) (o d : Nat) (s : State) :
    (answerRead k h o d s).settings = s.settings := by
  simp [answerRead]
@[simp] theorem answerRead_key (k : Byte) (h : Header) (o d : Nat) (s : State) :
    (answerRead k h o d s).key = s.key := by
  simp [answerRead]
@[simp] theorem answerRead_feed (k : Byte) (h : Header) (o d : Nat) (s : State) :
    (answerRead k h o d s).feed = s.feed := by
  simp [answerRead]
@[simp] theorem answerRead_unpacker (k : Byte) (h : Header) (o d : Nat) (s : State) :
    (answerRead k h o d s).unpacker = s.unpacker := by
  simp [answerRead]
@[simp] theorem answerRead_time (k : Byte) (h : Header) (o d : Nat) (s : State) :
    (answerRead k h o d s).time = s.time := by
  simp [answerRead]
@[simp] theorem answerRead_board (k : Byte) (h : Header) (o d : Nat) (s : State) :
    (answerRead k h o d s).board = s.board := by
  simp [answerRead]
@[simp] theorem answerRead_table (k : Byte) (h : Header) (o d : Nat) (s : State) :
    (answerRead k h o d s).table = s.table := by
  simp [answerRead]
@[simp] theorem answerRead_dir (k : Byte) (h : Header) (o d : Nat) (s : State) :
    (answerRead k h o d s).dir = s.dir := by
  simp [answerRead]
@[simp] theorem answerRead_paint (k : Byte) (h : Header) (o d : Nat) (s : State) :
    (answerRead k h o d s).paint = s.paint := by
  simp [answerRead]
@[simp] theorem answerRead_frame (k : Byte) (h : Header) (o d : Nat) (s : State) :
    (answerRead k h o d s).frame = s.frame := by
  simp [answerRead]
@[simp] theorem answerRead_freeIndex (k : Byte) (h : Header) (o d : Nat) (s : State) :
    (answerRead k h o d s).freeIndex = s.freeIndex := by
  simp [answerRead]
@[simp] theorem answerRead_pending (k : Byte) (h : Header) (o d : Nat) (s : State) :
    (answerRead k h o d s).pending = s.pending := by
  simp [answerRead]

@[simp] theorem enqueueRead_phase (t : Byte) (o : ReadObject) (s : State) :
    (enqueueRead t o s).phase = s.phase := by
  unfold enqueueRead; split <;> simp
@[simp] theorem enqueueRead_elapsed (t : Byte) (o : ReadObject) (s : State) :
    (enqueueRead t o s).elapsed = s.elapsed := by
  unfold enqueueRead; split <;> simp
@[simp] theorem enqueueRead_geometry (t : Byte) (o : ReadObject) (s : State) :
    (enqueueRead t o s).geometry = s.geometry := by
  unfold enqueueRead; split <;> simp
@[simp] theorem enqueueRead_settings (t : Byte) (o : ReadObject) (s : State) :
    (enqueueRead t o s).settings = s.settings := by
  unfold enqueueRead; split <;> simp
@[simp] theorem enqueueRead_key (t : Byte) (o : ReadObject) (s : State) :
    (enqueueRead t o s).key = s.key := by
  unfold enqueueRead; split <;> simp
@[simp] theorem enqueueRead_feed (t : Byte) (o : ReadObject) (s : State) :
    (enqueueRead t o s).feed = s.feed := by
  unfold enqueueRead; split <;> simp
@[simp] theorem enqueueRead_unpacker (t : Byte) (o : ReadObject) (s : State) :
    (enqueueRead t o s).unpacker = s.unpacker := by
  unfold enqueueRead; split <;> simp
@[simp] theorem enqueueRead_time (t : Byte) (o : ReadObject) (s : State) :
    (enqueueRead t o s).time = s.time := by
  unfold enqueueRead; split <;> simp
@[simp] theorem enqueueRead_board (t : Byte) (o : ReadObject) (s : State) :
    (enqueueRead t o s).board = s.board := by
  unfold enqueueRead; split <;> simp
@[simp] theorem enqueueRead_table (t : Byte) (o : ReadObject) (s : State) :
    (enqueueRead t o s).table = s.table := by
  unfold enqueueRead; split <;> simp
@[simp] theorem enqueueRead_dir (t : Byte) (o : ReadObject) (s : State) :
    (enqueueRead t o s).dir = s.dir := by
  unfold enqueueRead; split <;> simp
@[simp] theorem enqueueRead_paint (t : Byte) (o : ReadObject) (s : State) :
    (enqueueRead t o s).paint = s.paint := by
  unfold enqueueRead; split <;> simp
@[simp] theorem enqueueRead_frame (t : Byte) (o : ReadObject) (s : State) :
    (enqueueRead t o s).frame = s.frame := by
  unfold enqueueRead; split <;> simp
@[simp] theorem enqueueRead_freeIndex (t : Byte) (o : ReadObject) (s : State) :
    (enqueueRead t o s).freeIndex = s.freeIndex := by
  unfold enqueueRead; split <;> simp
@[simp] theorem enqueueRead_pending (t : Byte) (o : ReadObject) (s : State) :
    (enqueueRead t o s).pending = s.pending := by
  unfold enqueueRead; split <;> simp

@[simp] theorem answerAll_phase (k : Byte) (hs : List Header) (o d : Nat) (s : State) :
    (answerAll k hs o d s).phase = s.phase := by
  unfold answerAll; induction hs generalizing s <;> simp_all
@[simp] theorem answerAll_elapsed (k : Byte) (hs : List Header) (o d : Nat) (s : State) :
    (answerAll k hs o d s).elapsed = s.elapsed := by
  unfold answerAll; induction hs generalizing s <;> simp_all
@[simp] theorem answerAll_geometry (k : Byte) (hs : List Header) (o d : Nat) (s : State) :
    (answerAll k hs o d s).geometry = s.geometry := by
  unfold answerAll; induction hs generalizing s <;> simp_all
@[simp] theorem answerAll_settings (k : Byte) (hs : List Header) (o d : Nat) (s : State) :
    (answerAll k hs o d s).settings = s.settings := by
  unfold answerAll; induction hs generalizing s <;> simp_all
@[simp] theorem answerAll_key (k : Byte) (hs : List Header) (o d : Nat) (s : State) :
    (answerAll k hs o d s).key = s.key := by
  unfold answerAll; induction hs generalizing s <;> simp_all
@[simp] theorem answerAll_feed (k : Byte) (hs : List Header) (o d : Nat) (s : State) :
    (answerAll k hs o d s).feed = s.feed := by
  unfold answerAll; induction hs generalizing s <;> simp_all
@[simp] theorem answerAll_unpacker (k : Byte) (hs : List Header) (o d : Nat) (s : State) :
    (answerAll k hs o d s).unpacker = s.unpacker := by
  unfold answerAll; induction hs generalizing s <;> simp_all
@[simp] theorem answerAll_time (k : Byte) (hs : List Header) (o d : Nat) (s : State) :
    (answerAll k hs o d s).time = s.time := by
  unfold answerAll; induction hs generalizing s <;> simp_all
@[simp] theorem answerAll_board (k : Byte) (hs : List Header) (o d : Nat) (s : State) :
    (answerAll k hs o d s).board = s.board := by
  unfold answerAll; induction hs generalizing s <;> simp_all
@[simp] theorem answerAll_table (k : Byte) (hs : List Header) (o d : Nat) (s : State) :
    (answerAll k hs o d s).table = s.table := by
  unfold answerAll; induction hs generalizing s <;> simp_all
@[simp] theorem answerAll_dir (k : Byte) (hs : List Header) (o d : Nat) (s : State) :
    (answerAll k hs o d s).dir = s.dir := by
  unfold answerAll; induction hs generalizing s <;> simp_all
@[simp] theorem answerAll_paint (k : Byte) (hs : List Header) (o d : Nat) (s : State) :
    (answerAll k hs o d s).paint = s.paint := by
  unfold answerAll; induction hs generalizing s <;> simp_all
@[simp] theorem answerAll_frame (k : Byte) (hs : List Header) (o d : Nat) (s : State) :
    (answerAll k hs o d s).frame = s.frame := by
  unfold answerAll; induction hs generalizing s <;> simp_all
@[simp] theorem answerAll_freeIndex (k : Byte) (hs : List Header) (o d : Nat) (s : State) :
    (answerAll k hs o d s).freeIndex = s.freeIndex := by
  unfold answerAll; induction hs generalizing s <;> simp_all
@[simp] theorem answerAll_pending (k : Byte) (hs : List Header) (o d : Nat) (s : State) :
    (answerAll k hs o d s).pending = s.pending := by
  unfold answerAll; induction hs generalizing s <;> simp_all

/-! ### Line marks and requests -/

@[simp] theorem markLines_phase (l : List Nat) (s : State) :
    (markLines l s).phase = s.phase := by
  rfl
@[simp] theorem markLines_elapsed (l : List Nat) (s : State) :
    (markLines l s).elapsed = s.elapsed := by
  rfl
@[simp] theorem markLines_geometry (l : List Nat) (s : State) :
    (markLines l s).geometry = s.geometry := by
  rfl
@[simp] theorem markLines_settings (l : List Nat) (s : State) :
    (markLines l s).settings = s.settings := by
  rfl
@[simp] theorem markLines_key (l : List Nat) (s : State) :
    (markLines l s).key = s.key := by
  rfl
@[simp] theorem markLines_feed (l : List Nat) (s : State) :
    (markLines l s).feed = s.feed := by
  rfl
@[simp] theorem markLines_unpacker (l : List Nat) (s : State) :
    (markLines l s).unpacker = s.unpacker := by
  rfl
@[simp] theorem markLines_results (l : List Nat) (s : State) :
    (markLines l s).results = s.results := by
  rfl
@[simp] theorem markLines_time (l : List Nat) (s : State) :
    (markLines l s).time = s.time := by
  rfl
@[simp] theorem markLines_board (l : List Nat) (s : State) :
    (markLines l s).board = s.board := by
  rfl
@[simp] theorem markLines_table (l : List Nat) (s : State) :
    (markLines l s).table = s.table := by
  rfl
@[simp] theorem markLines_dir (l : List Nat) (s : State) :
    (markLines l s).dir = s.dir := by
  rfl
@[simp] theorem markLines_frame (l : List Nat) (s : State) :
    (markLines l s).frame = s.frame := by
  rfl
@[simp] theorem markLines_freeIndex (l : List Nat) (s : State) :
    (markLines l s).freeIndex = s.freeIndex := by
  rfl
@[simp] theorem markLines_pending (l : List Nat) (s : State) :
    (markLines l s).pending = s.pending := by
  rfl

@[simp] theorem raiseClock_phase (s : State) :
    (raiseClock s).phase = s.phase := by
  rfl
@[simp] theorem raiseClock_elapsed (s : State) :
    (raiseClock s).elapsed = s.elapsed := by
  rfl
@[simp] theorem raiseClock_geometry (s : State) :
    (raiseClock s).geometry = s.geometry := by
  rfl
@[simp] theorem raiseClock_settings (s : State) :
    (raiseClock s).settings = s.settings := by
  rfl
@[simp] theorem raiseClock_key (s : State) :
    (raiseClock s).key = s.key := by
  rfl
@[simp] theorem raiseClock_feed (s : State) :
    (raiseClock s).feed = s.feed := by
  rfl
@[simp] theorem raiseClock_unpacker (s : State) :
    (raiseClock s).unpacker = s.unpacker := by
  rfl
@[simp] theorem raiseClock_results (s : State) :
    (raiseClock s).results = s.results := by
  rfl
@[simp] theorem raiseClock_time (s : State) :
    (raiseClock s).time = s.time := by
  rfl
@[simp] theorem raiseClock_board (s : State) :
    (raiseClock s).board = s.board := by
  rfl
@[simp] theorem raiseClock_table (s : State) :
    (raiseClock s).table = s.table := by
  rfl
@[simp] theorem raiseClock_dir (s : State) :
    (raiseClock s).dir = s.dir := by
  rfl
@[simp] theorem raiseClock_frame (s : State) :
    (raiseClock s).frame = s.frame := by
  rfl
@[simp] theorem raiseClock_freeIndex (s : State) :
    (raiseClock s).freeIndex = s.freeIndex := by
  rfl
@[simp] theorem raiseClock_pending (s : State) :
    (raiseClock s).pending = s.pending := by
  rfl

/-- What marking lines does to the Paint Engine (R126). -/
@[simp] theorem markLines_paint (l : List Nat) (s : State) :
    (markLines l s).paint = { s.paint with dirty := setInsertAll l s.paint.dirty } := rfl

/-- What raising the clock request does to the Paint Engine (R124). -/
@[simp] theorem raiseClock_paint (s : State) : (raiseClock s).paint = { s.paint with clockRequest := true } := rfl

/-! ### The Service Table -/

@[simp] theorem recount_phase (f : List (Nat × Nat) → List (Nat × Nat)) (s : State) :
    (recount f s).phase = s.phase := by
  rfl
@[simp] theorem recount_elapsed (f : List (Nat × Nat) → List (Nat × Nat)) (s : State) :
    (recount f s).elapsed = s.elapsed := by
  rfl
@[simp] theorem recount_geometry (f : List (Nat × Nat) → List (Nat × Nat)) (s : State) :
    (recount f s).geometry = s.geometry := by
  rfl
@[simp] theorem recount_settings (f : List (Nat × Nat) → List (Nat × Nat)) (s : State) :
    (recount f s).settings = s.settings := by
  rfl
@[simp] theorem recount_key (f : List (Nat × Nat) → List (Nat × Nat)) (s : State) :
    (recount f s).key = s.key := by
  rfl
@[simp] theorem recount_feed (f : List (Nat × Nat) → List (Nat × Nat)) (s : State) :
    (recount f s).feed = s.feed := by
  rfl
@[simp] theorem recount_unpacker (f : List (Nat × Nat) → List (Nat × Nat)) (s : State) :
    (recount f s).unpacker = s.unpacker := by
  rfl
@[simp] theorem recount_results (f : List (Nat × Nat) → List (Nat × Nat)) (s : State) :
    (recount f s).results = s.results := by
  rfl
@[simp] theorem recount_time (f : List (Nat × Nat) → List (Nat × Nat)) (s : State) :
    (recount f s).time = s.time := by
  rfl
@[simp] theorem recount_board (f : List (Nat × Nat) → List (Nat × Nat)) (s : State) :
    (recount f s).board = s.board := by
  rfl
@[simp] theorem recount_table (f : List (Nat × Nat) → List (Nat × Nat)) (s : State) :
    (recount f s).table = s.table := by
  rfl
@[simp] theorem recount_paint (f : List (Nat × Nat) → List (Nat × Nat)) (s : State) :
    (recount f s).paint = s.paint := by
  rfl
@[simp] theorem recount_frame (f : List (Nat × Nat) → List (Nat × Nat)) (s : State) :
    (recount f s).frame = s.frame := by
  rfl
@[simp] theorem recount_freeIndex (f : List (Nat × Nat) → List (Nat × Nat)) (s : State) :
    (recount f s).freeIndex = s.freeIndex := by
  rfl
@[simp] theorem recount_pending (f : List (Nat × Nat) → List (Nat × Nat)) (s : State) :
    (recount f s).pending = s.pending := by
  rfl

@[simp] theorem touchWindow_phase (s : State) :
    (touchWindow s).phase = s.phase := by
  unfold touchWindow; dsimp only; split
  · rfl
  · split <;> rfl
@[simp] theorem touchWindow_elapsed (s : State) :
    (touchWindow s).elapsed = s.elapsed := by
  unfold touchWindow; dsimp only; split
  · rfl
  · split <;> rfl
@[simp] theorem touchWindow_geometry (s : State) :
    (touchWindow s).geometry = s.geometry := by
  unfold touchWindow; dsimp only; split
  · rfl
  · split <;> rfl
@[simp] theorem touchWindow_settings (s : State) :
    (touchWindow s).settings = s.settings := by
  unfold touchWindow; dsimp only; split
  · rfl
  · split <;> rfl
@[simp] theorem touchWindow_key (s : State) :
    (touchWindow s).key = s.key := by
  unfold touchWindow; dsimp only; split
  · rfl
  · split <;> rfl
@[simp] theorem touchWindow_feed (s : State) :
    (touchWindow s).feed = s.feed := by
  unfold touchWindow; dsimp only; split
  · rfl
  · split <;> rfl
@[simp] theorem touchWindow_unpacker (s : State) :
    (touchWindow s).unpacker = s.unpacker := by
  unfold touchWindow; dsimp only; split
  · rfl
  · split <;> rfl
@[simp] theorem touchWindow_results (s : State) :
    (touchWindow s).results = s.results := by
  unfold touchWindow; dsimp only; split
  · rfl
  · split <;> rfl
@[simp] theorem touchWindow_time (s : State) :
    (touchWindow s).time = s.time := by
  unfold touchWindow; dsimp only; split
  · rfl
  · split <;> rfl
@[simp] theorem touchWindow_board (s : State) :
    (touchWindow s).board = s.board := by
  unfold touchWindow; dsimp only; split
  · rfl
  · split <;> rfl
@[simp] theorem touchWindow_dir (s : State) :
    (touchWindow s).dir = s.dir := by
  unfold touchWindow; dsimp only; split
  · rfl
  · split <;> rfl
@[simp] theorem touchWindow_paint (s : State) :
    (touchWindow s).paint = s.paint := by
  unfold touchWindow; dsimp only; split
  · rfl
  · split <;> rfl
@[simp] theorem touchWindow_frame (s : State) :
    (touchWindow s).frame = s.frame := by
  unfold touchWindow; dsimp only; split
  · rfl
  · split <;> rfl
@[simp] theorem touchWindow_freeIndex (s : State) :
    (touchWindow s).freeIndex = s.freeIndex := by
  unfold touchWindow; dsimp only; split
  · rfl
  · split <;> rfl
@[simp] theorem touchWindow_pending (s : State) :
    (touchWindow s).pending = s.pending := by
  unfold touchWindow; dsimp only; split
  · rfl
  · split <;> rfl

@[simp] theorem retable_phase (l : List (Option Record)) (s : State) :
    (retable l s).phase = s.phase := by
  rfl
@[simp] theorem retable_elapsed (l : List (Option Record)) (s : State) :
    (retable l s).elapsed = s.elapsed := by
  rfl
@[simp] theorem retable_geometry (l : List (Option Record)) (s : State) :
    (retable l s).geometry = s.geometry := by
  rfl
@[simp] theorem retable_settings (l : List (Option Record)) (s : State) :
    (retable l s).settings = s.settings := by
  rfl
@[simp] theorem retable_key (l : List (Option Record)) (s : State) :
    (retable l s).key = s.key := by
  rfl
@[simp] theorem retable_feed (l : List (Option Record)) (s : State) :
    (retable l s).feed = s.feed := by
  rfl
@[simp] theorem retable_unpacker (l : List (Option Record)) (s : State) :
    (retable l s).unpacker = s.unpacker := by
  rfl
@[simp] theorem retable_results (l : List (Option Record)) (s : State) :
    (retable l s).results = s.results := by
  rfl
@[simp] theorem retable_time (l : List (Option Record)) (s : State) :
    (retable l s).time = s.time := by
  rfl
@[simp] theorem retable_board (l : List (Option Record)) (s : State) :
    (retable l s).board = s.board := by
  rfl
@[simp] theorem retable_dir (l : List (Option Record)) (s : State) :
    (retable l s).dir = s.dir := by
  rfl
@[simp] theorem retable_frame (l : List (Option Record)) (s : State) :
    (retable l s).frame = s.frame := by
  rfl
@[simp] theorem retable_freeIndex (l : List (Option Record)) (s : State) :
    (retable l s).freeIndex = s.freeIndex := by
  rfl
@[simp] theorem retable_pending (l : List (Option Record)) (s : State) :
    (retable l s).pending = s.pending := by
  rfl

@[simp] theorem sweep_phase (s : State) :
    (sweep s).phase = s.phase := by
  rfl
@[simp] theorem sweep_elapsed (s : State) :
    (sweep s).elapsed = s.elapsed := by
  rfl
@[simp] theorem sweep_geometry (s : State) :
    (sweep s).geometry = s.geometry := by
  rfl
@[simp] theorem sweep_settings (s : State) :
    (sweep s).settings = s.settings := by
  rfl
@[simp] theorem sweep_key (s : State) :
    (sweep s).key = s.key := by
  rfl
@[simp] theorem sweep_feed (s : State) :
    (sweep s).feed = s.feed := by
  rfl
@[simp] theorem sweep_unpacker (s : State) :
    (sweep s).unpacker = s.unpacker := by
  rfl
@[simp] theorem sweep_results (s : State) :
    (sweep s).results = s.results := by
  rfl
@[simp] theorem sweep_time (s : State) :
    (sweep s).time = s.time := by
  rfl
@[simp] theorem sweep_board (s : State) :
    (sweep s).board = s.board := by
  rfl
@[simp] theorem sweep_frame (s : State) :
    (sweep s).frame = s.frame := by
  rfl
@[simp] theorem sweep_freeIndex (s : State) :
    (sweep s).freeIndex = s.freeIndex := by
  rfl
@[simp] theorem sweep_pending (s : State) :
    (sweep s).pending = s.pending := by
  rfl

/-- What a count change does to the directory (R71). -/
@[simp] theorem recount_dir (f : List (Nat × Nat) → List (Nat × Nat)) (s : State) :
    (recount f s).dir = { s.dir with counts := f s.dir.counts } := rfl

/-- What a change of the records does to the table: the order is recomputed and the window stands (R23). -/
@[simp] theorem retable_table (l : List (Option Record)) (s : State) :
    (retable l s).table = { s.table with slots := l, order := runningOrder s.settings.filter l } := rfl

/-- What a change of the records does to the Paint Engine (R24, R25, R126). -/
@[simp] theorem retable_paint (l : List (Option Record)) (s : State) :
    (retable l s).paint = { s.paint with dirty := setInsertAll (changeMarks l s) s.paint.dirty } := rfl

/-- The window moves nothing else of the table. -/
@[simp] theorem touchWindow_slots (s : State) : (touchWindow s).table.slots = s.table.slots := by
  unfold touchWindow; dsimp only; split
  · rfl
  · split <;> rfl

@[simp] theorem touchWindow_order (s : State) : (touchWindow s).table.order = s.table.order := by
  unfold touchWindow; dsimp only; split
  · rfl
  · split <;> rfl

/-- What a sweep leaves of the table (R59). -/
theorem sweep_table (s : State) :
    (sweep s).table = { slots := keepLive s.table.slots,
                        order := runningOrder s.settings.filter (keepLive s.table.slots), window := .closed } := rfl

/-- What a sweep does to the directory: the counts of the removed records' references alone (R59, R71). -/
theorem sweep_dir (s : State) :
    (sweep s).dir = { s.dir with
      counts := countDown (((recordsOf s.table.slots).filter (fun r => !r.isLive)).flatMap referencesOf) s.dir.counts } :=
  rfl

/-- Window length 0: the sweep follows in the event, and only then (R57). -/
theorem sweepAtZero_eq (left : Bool) (s : State) :
    sweepAtZero left s = if left = true ∧ s.settings.sweepLength = 0 then sweep s else s := by
  unfold sweepAtZero; cases left <;> simp

end Sys2Proof.Machine
end

