-- ==== Sys2Proof/Laws/Settle.lean ====
section
/-! SUPPORT. What the arbiter's part of an event does: `settle` takes at most one line out of the dirty line set, and only for a
TABLE job granted to an idle arbiter; it moves the operation state at most one step, as the paint suspend request asks. -/

namespace Sys2Proof.Machine

/-! ### What judging the request leaves of the Paint Engine -/

@[simp] theorem directoryRaise_paint (s : State) : (directoryRaise s).paint = s.paint := by
  unfold directoryRaise; split <;> [split <;> simp; rfl]

@[simp] theorem directoryWithdraw_paint (s : State) : (directoryWithdraw s).paint = s.paint := by
  unfold directoryWithdraw startErasing; split <;> simp

@[simp] theorem judgeRequest_dirty (s : State) : (judgeRequest s).paint.dirty = s.paint.dirty := by
  unfold judgeRequest; dsimp only; split <;> split <;> simp [reportBanks]

@[simp] theorem judgeRequest_job (s : State) : (judgeRequest s).paint.job = s.paint.job := by
  unfold judgeRequest; dsimp only; split <;> split <;> simp [reportBanks]

@[simp] theorem judgeRequest_lastGranted (s : State) : (judgeRequest s).paint.lastGranted = s.paint.lastGranted := by
  unfold judgeRequest; dsimp only; split <;> split <;> simp [reportBanks]

@[simp] theorem judgeRequest_callingStep (s : State) : (judgeRequest s).paint.callingStep = s.paint.callingStep := by
  unfold judgeRequest; dsimp only; split <;> split <;> simp [reportBanks]

@[simp] theorem judgeRequest_clockRequest (s : State) :
    (judgeRequest s).paint.clockRequest = s.paint.clockRequest := by
  unfold judgeRequest; dsimp only; split <;> split <;> simp [reportBanks]

@[simp] theorem judgeRequest_bannerCompose (s : State) :
    (judgeRequest s).paint.bannerCompose = s.paint.bannerCompose := by
  unfold judgeRequest; dsimp only; split <;> split <;> simp [reportBanks]

@[simp] theorem judgeRequest_bannerStep (s : State) : (judgeRequest s).paint.bannerStep = s.paint.bannerStep := by
  unfold judgeRequest; dsimp only; split <;> split <;> simp [reportBanks]

/-! ### A busy arbiter -/

/-- A BUSY arbiter decides nothing (R128). -/
theorem decideGrant_busy {s : State} (h : s.paint.job ≠ none) : decideGrant s = s := by
  unfold decideGrant; split
  · rfl
  · contradiction

/-- While a job runs, the end of an event leaves the dirty line set, the requests and the arbiter (R128). -/
theorem settle_busy {s : State} (h : s.paint.job ≠ none) :
    (settle s).paint.dirty = s.paint.dirty ∧ (settle s).paint.job = s.paint.job ∧
      (settle s).paint.lastGranted = s.paint.lastGranted ∧ (settle s).paint.callingStep = s.paint.callingStep ∧
      (settle s).paint.clockRequest = s.paint.clockRequest ∧
      (settle s).paint.bannerCompose = s.paint.bannerCompose ∧ (settle s).paint.bannerStep = s.paint.bannerStep := by
  have hj : (judgeRequest s).paint.job ≠ none := by simpa using h
  simp [settle, decideGrant_busy hj]

/-! ### A grant -/

/-- What a grant makes of the dirty line set (R131). -/
theorem grant_dirty (slot : Slot) (s : State) :
    (grant slot s).paint.dirty = s.paint.dirty ∨
      ∃ line out, (grant slot s).paint.job = some (.table line out) ∧
        (grant slot s).paint.dirty = s.paint.dirty.filter (fun n => n != line) := by
  cases slot with
  | table =>
    simp only [grant, busyWith]
    split
    · next line _ => exact .inr ⟨line, _, rfl, rfl⟩
    · exact .inl rfl
  | scroll => exact .inl rfl
  | clock => exact .inl rfl
  | banner => left; simp only [grant, busyWith]; split <;> rfl

/-- What the end of an event makes of the dirty line set (R126, R131). -/
theorem settle_dirty (s : State) :
    (settle s).paint.dirty = s.paint.dirty ∨
      (s.paint.job = none ∧ ∃ line out, (settle s).paint.job = some (.table line out) ∧
        (settle s).paint.dirty = s.paint.dirty.filter (fun n => n != line)) := by
  by_cases h : s.paint.job = none
  · have hj : (judgeRequest s).paint.job = none := by simpa using h
    have hd : (decideGrant (judgeRequest s)).paint.dirty = s.paint.dirty ∨
        ∃ line out, (decideGrant (judgeRequest s)).paint.job = some (.table line out) ∧
          (decideGrant (judgeRequest s)).paint.dirty = s.paint.dirty.filter (fun n => n != line) := by
      unfold decideGrant
      rw [hj]
      dsimp only
      split
      · next slot _ => simpa using grant_dirty slot (judgeRequest s)
      · simp
    simpa [settle, h] using hd
  · exact .inl (settle_busy h).1

/-- An event that marks lines (R126): what holds of the dirty line set before the arbiter's part holds after it as `Marked`. -/
theorem settle_marked {lines : List Nat} {s s' : State} (hj : s'.paint.job = none → s.paint.job = none)
    (h : ∀ n, n ∈ s'.paint.dirty ↔ n ∈ lines ∨ n ∈ s.paint.dirty) : Marked lines s (settle s') := by
  rcases settle_dirty s' with hd | ⟨hn, line, out, ht, hd⟩
  · exact .inl (fun n => by rw [hd, h])
  · exact .inr ⟨hj hn, line, out, ht, fun n => by rw [hd, List.mem_filter, h]; simp⟩

/-! ### The operation state -/

theorem directoryRaise_op (s : State) :
    (directoryRaise s).dir.op = s.dir.op ∨
      ∃ e c, s.dir.op = .erasing e c ∧ (directoryRaise s).dir.op = .suspending e c .paint [] := by
  unfold directoryRaise
  split
  · next e c h =>
    split
    · exact .inr ⟨e, c, h, rfl⟩
    · exact .inl rfl
  · exact .inl rfl

theorem directoryWithdraw_op (s : State) :
    (directoryWithdraw s).dir.op = s.dir.op ∨
      ∃ e c, s.dir.op = .suspended e c .paint ∧ (directoryWithdraw s).dir.op = .erasing e { c with begun := true } := by
  unfold directoryWithdraw startErasing
  split
  · next e c h => exact .inr ⟨e, c, h, rfl⟩
  · exact .inl rfl

@[simp] theorem reportBanks_eq_dir (s : State) : (reportBanks s).dir = s.dir := rfl

/-- In an operation state the request does not act on, the end of an event leaves the directory as it was (R87). -/
theorem judgeRequest_dir {s : State} (he : ∀ e c, s.dir.op ≠ .erasing e c)
    (hs : ∀ e c, s.dir.op ≠ .suspended e c .paint) : (judgeRequest s).dir = s.dir := by
  unfold judgeRequest
  dsimp only
  split
  · split
    · simp only [reportBanks_eq_dir]
      unfold directoryWithdraw
      split
      · next e c h => exact absurd h (hs e c)
      · rfl
    · rfl
  · split
    · simp only [reportBanks_eq_dir]
      unfold directoryRaise
      split
      · next e c h => exact absurd h (he e c)
      · rfl
    · rfl

@[simp] theorem grant_dir (slot : Slot) (s : State) : (grant slot s).dir = s.dir := by
  cases slot <;> simp only [grant, busyWith] <;> (try split) <;> rfl

@[simp] theorem decideGrant_dir (s : State) : (decideGrant s).dir = s.dir := by
  unfold decideGrant; split
  · rfl
  · split
    · exact grant_dir _ _
    · rfl

/-- The end of an event leaves the directory alone in every operation state but ERASING and SUSPENDED with cause PAINT
(R87). -/
theorem settle_dir {s : State} (he : ∀ e c, s.dir.op ≠ .erasing e c) (hs : ∀ e c, s.dir.op ≠ .suspended e c .paint) :
    (settle s).dir = s.dir := by
  have h1 := judgeRequest_dir he hs
  unfold settle
  rw [judgeRequest_dir (by simpa [h1] using he) (by simpa [h1] using hs)]
  simp [h1]

end Sys2Proof.Machine
end

