-- ==== Sys2Proof/Laws/Claims.lean ====
section
/-! SUPPORT. Lemmas about the vocabulary of claims: how "every part but these" composes, and what running an event comes to. -/

namespace Sys2Proof.Machine

/-! ### Every part but these -/

theorem Part.same_refl (s : State) (p : Part) : p.same s s := by cases p <;> simp [Part.same]

theorem Part.same_trans {s t u : State} {p : Part} (h1 : p.same s t) (h2 : p.same t u) : p.same s u := by
  cases p <;> simp only [Part.same] at * <;> simp_all

theorem SameBut.refl (l : List Part) (s : State) : SameBut l s s := fun p _ => Part.same_refl s p

theorem SameBut.mono {l m : List Part} {s t : State} (h : SameBut l s t) (hlm : ∀ p, p ∈ l → p ∈ m) : SameBut m s t :=
  fun p hp => h p (fun hl => hp (hlm p hl))

theorem SameBut.trans {l m : List Part} {s t u : State} (h1 : SameBut l s t) (h2 : SameBut m t u) :
    SameBut (l ++ m) s u := fun p hp =>
  Part.same_trans (h1 p (fun h => hp (List.mem_append_left _ h))) (h2 p (fun h => hp (List.mem_append_right _ h)))

/-- The end of an event changes only the arbiter's parts. -/
theorem settle_sameBut (s : State) : SameBut arbiterParts s (settle s) := by
  intro p hp
  cases p <;> simp_all [Part.same, arbiterParts]

/-- The end of an event changes only the Paint Engine's share of the arbiter's parts, in an operation state the suspend request
does not act on. -/
theorem settle_sameBut_grant {s : State} (he : ∀ e c, s.dir.op ≠ .erasing e c)
    (hs : ∀ e c, s.dir.op ≠ .suspended e c .paint) : SameBut grantParts s (settle s) := by
  have h := settle_dir he hs
  intro p hp
  cases p <;> simp_all [Part.same, grantParts]

/-- An event whose own effect touches some parts, taken whole. -/
theorem sameBut_settle {l : List Part} {s s' : State} (h : SameBut l s s') : SameBut (l ++ arbiterParts) s (settle s') :=
  h.trans (settle_sameBut s')

theorem answer_sameBut (k : Byte) (h : Header) (o d : Nat) (s : State) : SameBut [.results] s (answer k h o d s) := by
  intro p hp
  cases p <;> simp_all [Part.same]

theorem enqueueRead_sameBut (tag : Byte) (o : ReadObject) (s : State) : SameBut [.results] s (enqueueRead tag o s) := by
  intro p hp
  cases p <;> simp_all [Part.same]

/-! ### Events -/

theorem event_of_running {s : State} (h : Running s) (f : State → State) : event f s = settle (f s) := by
  unfold Running at h; simp [event, h]

theorem feedEvent_of_listening {s : State} (h : Listening s) (f : State → State) : feedEvent f s = settle (f s) := by
  unfold Listening at h; simp [feedEvent, h]

/-- A message answered with no other effect of its own. -/
theorem answered_settle (kind : Byte) (h : Header) (outcome detail : Nat) (s : State) :
    Answered kind h outcome detail s (settle (answer kind h outcome detail s)) := by
  have := answer_answered kind h outcome detail s
  simpa [Answered] using this

theorem answer_only (kind : Byte) (h : Header) (outcome detail : Nat) (s : State) :
    SameBut (.results :: arbiterParts) s (settle (answer kind h outcome detail s)) :=
  sameBut_settle (answer_sameBut kind h outcome detail s)

end Sys2Proof.Machine
end

