-- ==== Sys2Proof/Laws/Directory.lean ====
section
/-! SUPPORT. What the Place Directory's shared operations do: the operation state at an event's end, several answers at once,
sets and masks, and that every operation on storage and the tables over place numbers keeps their canonical form. -/

namespace Sys2Proof.Machine

/-! ### The operation state at an event's end -/

theorem raiseCondition_not_held {s : State} (h : raiseCondition s = true) : isHeld s = false := by
  simp [raiseCondition] at h; exact h.1

/-- What judging the request does to the directory (R87, R144). -/
theorem judgeRequest_cases (s : State) :
    (judgeRequest s).dir = s.dir ∨
      (∃ e c, s.dir.op = .erasing e c ∧ s.settings.autoSuspend = true ∧ raiseCondition (reportBanks s) = true ∧
        (judgeRequest s).dir = { s.dir with op := .suspending e c .paint [] }) ∨
      ∃ e c, s.dir.op = .suspended e c .paint ∧ (judgeRequest s).dir = startErasing e c s.dir ∧
        (isHeld s = true ∨ ∀ line ∈ s.paint.dirty, ¬ (ownerOf s line = .table ∧
          needsBank s line (bankOfSector c.sector) = true)) := by
  unfold judgeRequest
  dsimp only
  split
  · split
    · next hw =>
      simp only [reportBanks_eq_dir]
      unfold directoryWithdraw
      split
      · next e c h =>
        have h' : s.dir.op = .suspended e c .paint := h
        refine .inr (.inr ⟨e, c, h', rfl, ?_⟩)
        have hw' : withdrawCondition s = true := hw
        simp only [withdrawCondition, h', eraseBank] at hw'
        simp only [Bool.or_eq_true, Bool.not_eq_true', List.any_eq_false] at hw'
        rcases hw' with hw' | hw'
        · exact .inl hw'
        · right; intro line hl hc; apply hw' line hl; simp [hc.1, hc.2]
      · exact .inl rfl
    · exact .inl rfl
  · split
    · next hr =>
      simp only [reportBanks_eq_dir]
      unfold directoryRaise
      split
      · next e c h =>
        split
        · next ha => exact .inr (.inl ⟨e, c, h, ha, hr, rfl⟩)
        · exact .inl rfl
      · exact .inl rfl
    · exact .inl rfl

theorem needsBank_congr {s t : State} (hb : t.board = s.board) (ht : t.table = s.table) (line : Nat) (bank : Bank) :
    needsBank t line bank = needsBank s line bank := by
  simp [needsBank, neededPlaces, recordAt, hb, ht]

theorem ownerOf_congr {s t : State} (hb : t.board = s.board) (hg : t.geometry = s.geometry)
    (hn : t.paint.banner = s.paint.banner) (line : Nat) : ownerOf t line = ownerOf s line := by
  unfold ownerOf bannerLine State.lines; rw [hb, hg, hn]

/-- Where an event's end leaves the operation state and the erase-begun marks (R87). -/
theorem settle_dirSettled (s : State) : DirSettled s.dir.op s.dir.eraseMarks (settle s) := by
  have hl := judgeRequest_leaves s
  have hl2 := (judgeRequest_leaves s).trans (decideGrant_leaves _)
  have hd : (decideGrant (judgeRequest s)).dir = (judgeRequest s).dir := by simp
  have hsub : ∀ n, n ∈ (decideGrant (judgeRequest s)).paint.dirty → n ∈ s.paint.dirty := by
    intro n hn
    unfold decideGrant at hn
    split at hn
    · simpa using hn
    · split at hn
      · next slot _ =>
        rcases grant_dirty slot (judgeRequest s) with h | ⟨line, out, _, h⟩
        · rw [h] at hn; simpa using hn
        · rw [h] at hn; simp at hn; exact hn.1
      · simpa using hn
  rcases judgeRequest_cases (decideGrant (judgeRequest s)) with h2 | ⟨e, c, h2o, h2a, hcond, h2⟩ | ⟨e, c, h2o, h2, _⟩
  all_goals rcases judgeRequest_cases s with h1 | ⟨e1, c1, h1o, h1a, _, h1⟩ | ⟨e1, c1, h1o, h1, h1n⟩
  · left; constructor <;> simp [settle, h2, h1]
  · right; left; exact ⟨e1, c1, h1o, by simpa using h1a, by simp [settle, h2, h1], by simp [settle, h2, h1]⟩
  · right; right; exact ⟨e1, c1, h1o, by simp [settle, h2, h1, startErasing], by simp [settle, h2, h1, startErasing]⟩
  · rw [hd, h1] at h2o
    right; left; refine ⟨e, c, h2o, ?_, by simp [settle, h2], by simp [settle, h2, h1]⟩
    have : (decideGrant (judgeRequest s)).settings = s.settings := by simp [ArbiterLeaves] at hl2; simp_all
    simpa [this] using h2a
  · rw [hd, h1] at h2o; simp at h2o
  · -- a withdrawal is never followed by a raise in the same event
    exfalso
    have hop : (reportBanks (decideGrant (judgeRequest s))).dir.op = .erasing e1 { c1 with begun := true } := by
      rw [reportBanks_eq_dir, hd, h1]; rfl
    unfold raiseCondition at hcond
    rw [hop] at hcond
    simp only [eraseBank, Bool.and_eq_true, List.any_eq_true, Bool.not_eq_true'] at hcond
    obtain ⟨hheld, _, line, hline, ⟨hown, hneed⟩, _⟩ := hcond
    simp only [ArbiterLeaves] at hl2
    have hh : isHeld s = false := by
      have : (reportBanks (decideGrant (judgeRequest s))).paint.hold = s.paint.hold := by
        have : (decideGrant (judgeRequest s)).paint.hold = s.paint.hold := by simp_all
        simpa [reportBanks] using this
      rw [← hheld]; simp [isHeld, this]
    rcases h1n with h1n | h1n
    · rw [hh] at h1n; exact absurd h1n (by simp)
    · refine h1n line (hsub line ?_) ⟨?_, ?_⟩
      · simpa [reportBanks] using hline
      · rw [← ownerOf_congr (s := s) (t := reportBanks (decideGrant (judgeRequest s))) ?_ ?_ ?_]
        · simpa using hown
        all_goals simp [reportBanks]; simp_all
      · rw [← needsBank_congr (s := s) (t := reportBanks (decideGrant (judgeRequest s))) ?_ ?_]
        · simpa using hneed
        all_goals simp [reportBanks]; simp_all
  · rw [hd, h1] at h2o
    right; right; exact ⟨e, c, h2o, by simp [settle, h2, startErasing], by simp [settle, h2, h1, startErasing]⟩
  · rw [hd, h1] at h2o; simp at h2o
  · rw [hd, h1] at h2o; simp [startErasing] at h2o

/-- An event whose own effect touches some parts and leaves an operation state the request does not act on, taken whole. -/
theorem sameBut_settle_grant {l : List Part} {s s' : State} (h : SameBut l s s') (he : ∀ e c, s'.dir.op ≠ .erasing e c)
    (hs : ∀ e c, s'.dir.op ≠ .suspended e c .paint) : SameBut (l ++ grantParts) s (settle s') :=
  h.trans (settle_sameBut_grant he hs)

/-! ### Several answers at once -/

theorem entered_nil (s : State) : Entered [] s s := by
  simp [Entered]

theorem entered_append {l m : List Entry} {s t u : State} (h1 : Entered l s t) (h2 : Entered m t u) :
    Entered (l ++ m) s u := by
  unfold Entered at *
  rw [h2, h1]
  simp only [ResultSender.mk.injEq, and_true]
  constructor
  · rw [List.append_assoc, List.take_append]
    congr 2
    by_cases h : 16 - s.results.queue.length ≤ l.length
    · have e1 : 16 - (s.results.queue ++ l.take (16 - s.results.queue.length)).length = 0 := by
        simp; omega
      have e2 : 16 - s.results.queue.length - l.length = 0 := by omega
      rw [e1, e2]
    · have e1 : l.take (16 - s.results.queue.length) = l := List.take_of_length_le (by omega)
      rw [e1]
      congr 1
      simp; omega
  · rw [Bool.eq_iff_iff]
    simp only [Bool.or_eq_true, decide_eq_true_eq, List.length_append, List.length_take, or_assoc]
    refine or_congr_right ⟨fun h => ?_, fun h => ?_⟩ <;> omega

theorem enqueue_entered (e : Entry) (s : State) : Entered [e] s (enqueue e s) := by
  unfold Entered enqueue queueLimit
  split
  · next h =>
    have e1 : ([e] : List Entry).take (16 - s.results.queue.length) = [e] := List.take_of_length_le (by simp; omega)
    simp [State.withResults, e1]; omega
  · next h =>
    have e1 : 16 - s.results.queue.length = 0 := by omega
    simp [State.withResults, e1]

theorem answer_entered (kind : Byte) (h : Header) (outcome detail : Nat) (s : State) :
    Entered (answersOf kind [h] outcome detail) s (answer kind h outcome detail s) := by
  unfold answer answersOf
  cases hr : h.reply
  · simpa [hr] using entered_nil s
  · simpa [hr] using enqueue_entered _ s

theorem answerAll_entered (kind : Byte) (hs : List Header) (outcome detail : Nat) (s : State) :
    Entered (answersOf kind hs outcome detail) s (answerAll kind hs outcome detail s) := by
  induction hs generalizing s with
  | nil => exact entered_nil s
  | cons h r ih =>
    have := entered_append (answer_entered kind h outcome detail s) (ih (answer kind h outcome detail s))
    simp only [answerAll, List.foldl_cons] at *
    convert this using 2
    simp [answersOf, ← List.map_append, ← List.filter_append]

/-- Entering looks only at the results. -/
theorem entered_congr {l : List Entry} {s s' t t' : State} (hs : s'.results = s.results) (ht : t'.results = t.results) :
    Entered l s t ↔ Entered l s' t' := by
  simp [Entered, hs, ht]

/-- One answer is one entry when it is wanted. -/
theorem answered_congr {kind : Byte} {h : Header} {outcome detail : Nat} {s s' t t' : State}
    (hs : s'.results = s.results) (ht : t'.results = t.results) :
    Answered kind h outcome detail s t ↔ Answered kind h outcome detail s' t' := by
  simp [Answered, hs, ht]

/-! ### Sets and masks -/

theorem maskOf_is (set : List Nat) : MaskIs set (maskOf set) := by
  intro n
  induction set with
  | nil => simp [maskOf]
  | cons a r ih =>
    have : maskOf (a :: r) = 2 ^ a ||| maskOf r := rfl
    rw [this, Nat.testBit_or, Bool.or_eq_true, ih, Nat.testBit_two_pow]
    simp [eq_comm]

theorem mem_setOfMask (m : Byte) (a : Nat) : a ∈ setOfMask m ↔ a < 8 ∧ m.getLsbD a = true := by
  simp [setOfMask]

/-! ### Range checks -/

theorem glyphText_iff (most : Nat) (t : Text) : nameOK most t = true ↔ GlyphText most t := by
  simp [nameOK, GlyphText, isGlyph, Nat.pos_iff_ne_zero, Nat.one_le_iff_ne_zero]

theorem entryOK_iff (e : PlaceEntry) : entryOK e = true ↔ EntryInRange e := by
  rcases e with ⟨full, short, code⟩
  cases short <;> simp [entryOK, EntryInRange, glyphText_iff, placeCodeOK, and_assoc]

theorem writeFieldsOK_iff (f : WriteFields) : writeFieldsOK f = true ↔ ¬ WriteOutOfRange f := by
  simp [writeFieldsOK, WriteOutOfRange, entryOK_iff]; omega

/-! ### The canonical form is kept -/

theorem wf_iff (d : Directory) : d.wf = true ↔ cellsFrom StoredSlot.erased 1024 0 d.storage = true ∧
    cellsFrom SlotState.blank 1024 0 d.slotStates = true ∧ cellsFrom 0 1024 0 d.counts = true := by
  simp [Directory.wf, and_assoc]

theorem reset_wf : State.reset.dir.wf = true := rfl

theorem startWrite_wf {f : WriteFields} {op : DirOp} {s : State} (h : s.dir.wf = true) (hp : f.place < 1024) :
    (startWrite f op s).dir.wf = true := by
  rw [wf_iff] at *
  exact ⟨cellSet_canonical h.1 (Nat.zero_le _) hp, cellSet_canonical h.2.1 (Nat.zero_le _) hp, h.2.2⟩

theorem endWrite_wf {verified : Bool} {w : WriteRun} {op : DirOp} {s : State} (h : s.dir.wf = true)
    (hp : w.place < 1024) : (endWrite verified w op s).dir.wf = true := by
  rw [wf_iff] at *
  simp only [endWrite, answer_dir]
  exact ⟨cellSet_canonical h.1 (Nat.zero_le _) hp, cellSet_canonical h.2.1 (Nat.zero_le _) hp, h.2.2⟩

theorem eraseSlots_wf {sector : Nat} {d : Directory} (h : d.wf = true) : (eraseSlots sector d).wf = true := by
  rw [wf_iff] at *
  exact ⟨cellClear_canonical h.1 _ _, cellClear_canonical h.2.1 _ _, h.2.2⟩

theorem directoryReset_wf {b : Bool} {d : Directory} (h : d.wf = true) : (directoryReset b d).wf = true := by
  rw [wf_iff] at *
  refine ⟨?_, rfl, rfl⟩
  simp only [directoryReset, cutStorage]; split <;> exact h.1

end Sys2Proof.Machine
end

