-- ==== Sys2Proof/Laws/Frames.lean ====
section
/-! SUPPORT. The frames of events that end with the arbiter's decision: at rest the decision changes nothing, and it raises no
request; and every decision leaves the arbiter at rest. -/

namespace Sys2Proof.Machine

/-! ### The decision at rest -/

theorem reportBanks_of_settled {s : State} (h : Settled s) : reportBanks s = s := by
  obtain ⟨ha, hb, -⟩ := h
  unfold reportBanks State.withPaint
  rw [← ha, ← hb]

theorem judgeRequest_of_settled {s : State} (h : Settled s) : judgeRequest s = s := by
  unfold judgeRequest
  rw [reportBanks_of_settled h]
  obtain ⟨-, -, -, hw, hr⟩ := h
  dsimp only
  split
  · next hq => rw [if_neg (by rw [hw hq]; simp)]
  · next hq => rw [if_neg (by rw [hr (by simpa using hq)]; simp)]

theorem decideGrant_of_settled {s : State} (h : Settled s) : decideGrant s = s := by
  unfold decideGrant
  split
  · rfl
  · next hj =>
    have hn : (roundAfter s.paint.lastGranted).find? (grantable s) = none := by
      rw [List.find?_eq_none]; intro x _; rw [h.2.2.1 hj x]; simp
    rw [hn]

/-- An arbiter at rest has nothing to decide. -/
theorem settle_of_settled {s : State} (h : Settled s) : settle s = s := by
  unfold settle
  rw [judgeRequest_of_settled h, decideGrant_of_settled h, judgeRequest_of_settled h]

/-! ### Parts the decision does not read -/

/-- Parts that enter no condition of the arbiter. -/
def asideParts : List Part :=
  [.elapsed, .key, .feed, .unpacker, .results, .time, .window, .callingScroll, .bannerScroll, .layouts, .frame, .freeIndex,
    .pending]

theorem settled_congr {s t : State} (h : SameBut asideParts s t) (hs : Settled s) : Settled t := by
  have f (p : Part) (hp : p ∉ asideParts := by simp [asideParts]) : p.same s t := h p hp
  have hge := f .geometry; have hse := f .settings; have hb := f .board; have hsl := f .slots; have ho := f .order
  have hop := f .dirOp; have hd := f .dirty; have hr := f .requests; have ha := f .arbiter; have hh := f .hold
  have hba := f .banner; have hsu := f .suspendRequest; have hk := f .bankReport
  simp only [Part.same] at hge hse hb hsl ho hop hd hr ha hh hba hsu hk
  have hrec (n : Nat) : recordAt t n = recordAt s n := by simp [recordAt, hsl, ho]
  have hown (n : Nat) : ownerOf t n = ownerOf s n := ownerOf_congr hb hge hba n
  have hneed (n : Nat) : neededPlaces t n = neededPlaces s n := by simp [neededPlaces, hb, hrec]
  have hrep (bank : Bank) : reported t.paint bank = reported s.paint bank := by cases bank <;> simp [reported, hk.1, hk.2]
  have hheld : isHeld t = isHeld s := by simp [isHeld, hh]
  have helig (n : Nat) : eligible t n = eligible s n := by simp [eligible, hown, hneed, bankFree, hrep]
  have hgr (x : Slot) : grantable t x = grantable s x := by
    cases x <;> simp [grantable, hheld, firstEligible, hd, hse, hr.1, hr.2.1, hr.2.2.1, hr.2.2.2,
      show eligible t = eligible s from funext helig]
  have hw : withdrawCondition t = withdrawCondition s := by simp [withdrawCondition, hheld, hop, hd, hown, needsBank, hneed]
  have hra : raiseCondition t = raiseCondition s := by
    simp [raiseCondition, hheld, hop, hd, hown, needsBank, hneed, hrep, bankFree]
  obtain ⟨h1, h2, h3, h4, h5⟩ := hs
  refine ⟨by rw [hk.1, hop]; exact h1, by rw [hk.2, hop]; exact h2, ?_, ?_, ?_⟩
  · intro hj x; rw [hgr]; exact h3 (by rw [← ha.1]; exact hj) x
  · intro hq; rw [hw]; exact h4 (by rw [← hsu]; exact hq)
  · intro hq; rw [hra]; exact h5 (by rw [← hsu]; exact hq)

/-! ### The decision raises no request -/

theorem grant_requests (slot : Slot) (s : State) : NoneRaised { s with paint := { s.paint with job := none } } (grant slot s) := by
  cases slot <;> simp only [NoneRaised, grant, State.withPaint] <;> (repeat' split) <;> simp_all [busyWith]

theorem settle_noneRaised (s : State) : NoneRaised s (settle s) := by
  unfold settle NoneRaised
  by_cases hj : s.paint.job = none
  · simp only [judgeRequest_callingStep, judgeRequest_clockRequest, judgeRequest_bannerCompose, judgeRequest_bannerStep]
    have hj' : (judgeRequest s).paint.job = none := by simpa using hj
    have key : NoneRaised (judgeRequest s) (decideGrant (judgeRequest s)) := by
      unfold decideGrant
      rw [hj']
      dsimp only
      split
      · next slot _ =>
        have hg := grant_requests slot (judgeRequest s)
        exact ⟨hg.1, hg.2.1, hg.2.2.1, hg.2.2.2.1, fun h => absurd hj' h⟩
      · exact ⟨id, id, id, id, fun h => absurd hj' h⟩
    refine ⟨?_, ?_, ?_, ?_, fun h => absurd hj h⟩
    · simpa using key.1
    · simpa using key.2.1
    · simpa using key.2.2.1
    · simpa using key.2.2.2.1
  · have hj' : (judgeRequest s).paint.job ≠ none := by simpa using hj
    rw [decideGrant_busy hj']
    simp [Part.same]

/-! ### Frames -/

/-- An event that touches no part of the arbiter and no directory state, taken whole. -/
theorem framedBy_settle {l : List Part} {s s' : State} (h : SameBut l s s') (hd : s'.dir.op = s.dir.op)
    (hm : s'.dir.eraseMarks = s.dir.eraseMarks) : FramedBy l s (settle s') :=
  ⟨sameBut_settle h, by rw [← hd, ← hm]; exact settle_dirSettled s'⟩

theorem quietlyFramed_settle {l : List Part} {s s' : State} (h : SameBut l s s')
    (hl : .requests ∉ l ∧ .arbiter ∉ l ∧ .dirOp ∉ l ∧ .eraseMarks ∉ l) : QuietlyFramed l s (settle s') := by
  have hr := h _ hl.1
  have ha := h _ hl.2.1
  refine ⟨framedBy_settle h (h _ hl.2.2.1) (h _ hl.2.2.2), ?_⟩
  obtain ⟨h1, h2, h3, h4, h5⟩ := settle_noneRaised s'
  simp only [Part.same] at hr ha
  refine ⟨fun x => hr.1 ▸ h1 x, fun x => hr.2.1 ▸ h2 x, fun x => hr.2.2.1 ▸ h3 x, fun x => hr.2.2.2 ▸ h4 x, fun hj => ?_⟩
  obtain ⟨b1, b2⟩ := h5 (by rw [ha.1]; exact hj)
  exact ⟨Part.same_trans (show Part.requests.same s s' from hr) b1, Part.same_trans (show Part.arbiter.same s s' from ha) b2⟩

/-- An event on parts that enter no condition of the arbiter changes those alone when the arbiter was at rest. -/
theorem framedAtRest_settle {l : List Part} {s s' : State} (h : SameBut l s s') (hl : ∀ p ∈ l, p ∈ asideParts) :
    FramedAtRest l s (settle s') := by
  have n (p : Part) (hp : p ∉ asideParts) : p ∉ l := fun x => hp (hl p x)
  refine ⟨quietlyFramed_settle h ⟨n _ (by simp [asideParts]), n _ (by simp [asideParts]), n _ (by simp [asideParts]),
    n _ (by simp [asideParts])⟩, fun hs => ?_⟩
  rw [settle_of_settled (settled_congr (h.mono hl) hs)]
  exact h

/-- A message answered with no other effect of its own. -/
theorem answer_framed (kind : Byte) (h : Header) (outcome detail : Nat) (s : State) :
    FramedAtRest [.results] s (settle (answer kind h outcome detail s)) :=
  framedAtRest_settle (answer_sameBut kind h outcome detail s) (by simp [asideParts])

/-! ### The decision leaves the arbiter at rest -/

/-- The bank report is the directory's, and the suspend request agrees with its conditions. -/
def Judged (s : State) : Prop :=
  s.paint.bankA = bankBusy s.dir.op .a ∧ s.paint.bankB = bankBusy s.dir.op .b ∧
    (s.paint.suspendRequest = true → withdrawCondition s = false) ∧
    (s.paint.suspendRequest = false → raiseCondition s = false)

theorem judgeRequest_of_judged {s : State} (h : Judged s) : judgeRequest s = s := by
  obtain ⟨ha, hb, hw, hr⟩ := h
  have hrep : reportBanks s = s := by unfold reportBanks State.withPaint; rw [← ha, ← hb]
  unfold judgeRequest
  rw [hrep]
  dsimp only
  split
  · next hq => rw [if_neg (by rw [hw hq]; simp)]
  · next hq => rw [if_neg (by rw [hr (by simpa using hq)]; simp)]

theorem withdrawCondition_congr {s t : State} (hb : t.board = s.board) (ht : t.table = s.table) (hg : t.geometry = s.geometry)
    (hn : t.paint.banner = s.paint.banner) (hh : t.paint.hold = s.paint.hold) (hd : t.paint.dirty = s.paint.dirty)
    (he : eraseBank t.dir.op = eraseBank s.dir.op) : withdrawCondition t = withdrawCondition s := by
  simp [withdrawCondition, isHeld, hh, he, hd, ownerOf_congr hb hg hn, needsBank_congr hb ht]

/-- The conditions exclude each other: a line that raises the request keeps it. -/
theorem withdraw_of_raise {s : State} (h : raiseCondition s = true) : withdrawCondition s = false := by
  unfold raiseCondition at h
  unfold withdrawCondition
  split at h
  · simp at h
  · next bank hb =>
    simp only [Bool.and_eq_true, Bool.not_eq_true', List.any_eq_true, decide_eq_true_eq] at h
    obtain ⟨hh, -, line, hl, ⟨ho, hn⟩, -⟩ := h
    rw [hh]
    simp only [Bool.false_or, Bool.not_eq_false', List.any_eq_true]
    exact ⟨line, hl, by simp [ho, hn]⟩

theorem judged_judgeRequest (s : State) : Judged (judgeRequest s) := by
  have hw (s t : State) (hp : t.paint = { s.paint with suspendRequest := t.paint.suspendRequest, bankA := t.paint.bankA, bankB := t.paint.bankB })
      (hb : t.board = s.board) (ht : t.table = s.table) (hg : t.geometry = s.geometry)
      (he : eraseBank t.dir.op = eraseBank s.dir.op) : withdrawCondition t = withdrawCondition s :=
    withdrawCondition_congr hb ht hg (by rw [hp]) (by rw [hp]) (by rw [hp]) he
  unfold judgeRequest
  dsimp only
  split
  · next hq =>
    split
    · next hc =>
      refine ⟨rfl, rfl, ?_, ?_⟩
      · intro h; simp [reportBanks] at h
      · intro _
        by_contra hr
        have := withdraw_of_raise (by simpa using hr)
        rw [hw (reportBanks s) _ (by simp [reportBanks]) (by unfold directoryWithdraw; split <;> rfl) (by unfold directoryWithdraw; split <;> rfl) (by unfold directoryWithdraw; split <;> rfl) ?_] at this
        · rw [hc] at this; cases this
        · simp only [reportBanks_eq_dir]; unfold directoryWithdraw; split <;> simp_all [eraseBank, startErasing, State.withDir, State.withPaint, reportBanks]
    · next hc => exact ⟨rfl, rfl, fun _ => by simpa using hc, fun h => by rw [hq] at h; cases h⟩
  · next hq =>
    split
    · next hc =>
      refine ⟨rfl, rfl, ?_, ?_⟩
      · intro _
        rw [hw (reportBanks s) _ (by simp [reportBanks]) (by unfold directoryRaise; split <;> (try split) <;> rfl) (by unfold directoryRaise; split <;> (try split) <;> rfl) (by unfold directoryRaise; split <;> (try split) <;> rfl) ?_]
        · exact withdraw_of_raise hc
        · simp only [reportBanks_eq_dir]; unfold directoryRaise; split <;> (try split) <;> simp_all [eraseBank, State.withDir, State.withPaint, reportBanks]
      · intro h; simp [reportBanks] at h
    · next hc => exact ⟨rfl, rfl, fun h => absurd h hq, fun _ => by simpa using hc⟩

/-- Every decision leaves the arbiter at rest. -/
theorem settled_settle (s : State) : Settled (settle s) := by
  obtain ⟨h1, h2, h3, h4⟩ := judged_judgeRequest (decideGrant (judgeRequest s))
  refine ⟨h1, h2, ?_, h3, h4⟩
  intro hj x
  have hj' : (decideGrant (judgeRequest s)).paint.job = none := by simpa [settle] using hj
  have hu : (judgeRequest s).paint.job = none := by
    by_contra h; rw [decideGrant_busy h] at hj'; exact h hj'
  have hf : (roundAfter (judgeRequest s).paint.lastGranted).find? (grantable (judgeRequest s)) = none := by
    by_contra hn
    obtain ⟨slot, hs⟩ := Option.ne_none_iff_exists'.mp hn
    unfold decideGrant at hj'
    simp only [hu, hs] at hj'
    have hg := List.find?_some hs
    cases slot
    · simp only [grantable, Bool.and_eq_true, Option.isSome_iff_exists] at hg
      obtain ⟨-, line, hl⟩ := hg
      simp [grant, hl, busyWith, State.withPaint] at hj'
    · simp [grant, busyWith, State.withPaint] at hj'
    · simp [grant, busyWith, State.withPaint] at hj'
    · simp only [grant] at hj'
      split at hj' <;> simp [busyWith, State.withPaint] at hj'
  have hv : decideGrant (judgeRequest s) = judgeRequest s := by
    unfold decideGrant; simp only [hu, hf]
  unfold settle
  rw [hv, judgeRequest_of_judged (judged_judgeRequest s)]
  rw [List.find?_eq_none] at hf
  have hx : x ∈ roundAfter (judgeRequest s).paint.lastGranted := by
    cases x <;> cases (judgeRequest s).paint.lastGranted <;> simp [roundAfter]
  simpa using hf x hx

theorem settle_settle (s : State) : settle (settle s) = settle s := settle_of_settled (settled_settle s)

end Sys2Proof.Machine
end

