-- ==== Sys2Proof/Laws/Table.lean ====
section
/-! SUPPORT. What the Service Table's shared operations do, in the terms of claims: checks, finding and placing records, reference
counts, the sweep. -/

namespace Sys2Proof.Machine

/-! ### Checks -/

theorem platformOK_iff (t : Text) : platformOK t = true ↔ PlatformCode t := by
  simp [platformOK, PlatformCode, platformChar, and_assoc]
  intro h1 h2; constructor
  · intro _; omega
  · intro _; omega

theorem runStateOf_isSome (n : Nat) : (runStateOf n).isSome = decide (n ≤ 3) := by
  rcases n with _ | _ | _ | _ | n <;> simp [runStateOf]

theorem runStateOf_estimated (n : Nat) : runStateOf n = some .estimated ↔ n = 1 := by
  rcases n with _ | _ | _ | _ | n <;> simp [runStateOf]

/-- The field check of POST SERVICE is R9's. -/
theorem postFieldsOK_iff {f : PostFields} (hk : f.key < 65536) : postFieldsOK f = true ↔ ¬ PostOutOfRange f := by
  unfold postFieldsOK PostOutOfRange
  have hp := platformOK_iff f.platform
  rcases f with ⟨key, rev, sch, st, pl, dest, delay, via, stops, train⟩
  simp only [] at *
  rcases train with _ | n <;> rcases delay with _ | d <;>
  simp [keyOK, namedPlaces, postPlaces, hp, runStateOf_isSome, runStateOf_estimated, Nat.lt_succ_iff, hk,
    Nat.pos_iff_ne_zero] <;> grind

theorem postFieldsOK_false {f : PostFields} (h : PostOutOfRange f) : postFieldsOK f = false := by
  by_cases hk : f.key < 65536
  · simpa [h] using postFieldsOK_iff hk
  · simp [postFieldsOK, keyOK, hk]

/-- The field check of AMEND SERVICE is R15's. -/
theorem amendFieldsOK_iff {f : AmendFields} (hk : f.key < 65536) : amendFieldsOK f = true ↔ ¬ AmendOutOfRange f := by
  unfold amendFieldsOK AmendOutOfRange
  rcases f with ⟨key, rev, delay, st, pl, train, skip, restore⟩
  simp only [] at *
  rcases train with _ | n <;> rcases st with _ | c <;> rcases pl with _ | t <;>
  simp [keyOK, indexList, platformOK_iff, runStateOf_isSome, hk, Nat.pos_iff_ne_zero] <;> grind

theorem amendFieldsOK_false {f : AmendFields} (h : AmendOutOfRange f) : amendFieldsOK f = false := by
  by_cases hk : f.key < 65536
  · simpa [h] using amendFieldsOK_iff hk
  · simp [amendFieldsOK, keyOK, hk]

/-- The distance of R7 as the revision rule computes it. -/
theorem revisionDistance_eq (new old : Byte) : (new - old).toNat = revisionDistance new old := by
  simp only [BitVec.toNat_sub, revisionDistance]
  have := old.isLt
  omega

/-- The revision rule (R7). -/
theorem judgeRevision_eq (new old : Byte) :
    judgeRevision new old = if revisionDistance new old = 0 then .duplicate
      else if revisionDistance new old ≤ 127 then .newer else .stale := by
  unfold judgeRevision; simp only [revisionDistance_eq]

theorem judgeRevision_newer {new old : Byte} (h : Newer new old) : judgeRevision new old = .newer := by
  rw [judgeRevision_eq]; unfold Newer at h
  rw [if_neg (by omega), if_pos h.2]

/-- The place check finds the first place that fails (R10). -/
theorem firstBadPlace_failure {s : State} {places : List Nat} {outcome detail : Nat}
    (h : PlaceFailure s places outcome detail) (hne : places ≠ []) :
    firstBadPlace s.dir places = some (outcome, detail) := by
  induction places with
  | nil => simp at hne
  | cons p r ih =>
    unfold PlaceFailure at h ih
    unfold firstBadPlace askPlace
    rcases h with ⟨h1, h2, h3⟩ | ⟨h1, before, q, after, h2, h3, h4, h5⟩
    · simp [h1, h2, h3, outDirectoryBusy]
    · rcases before with _ | ⟨b, before⟩
      · simp only [List.nil_append, List.cons.injEq] at h2
        obtain ⟨rfl, rfl⟩ := h2
        rcases h5 with ⟨h5, h6⟩ | ⟨h5, h6, h7⟩ <;> simp_all [outPlaceUnavailable, outPlaceUnknown]
      · simp only [List.cons_append, List.cons.injEq] at h2
        obtain ⟨rfl, rfl⟩ := h2
        have hb := h3 p (by simp)
        simp only [PlaceUsable] at hb
        simp [h1, hb]
        exact ih (.inr ⟨h1, before, q, after, rfl, fun x hx => h3 x (by simp [hx]), h4, h5⟩) (by simp)

/-- The place check passes when every place is usable (R10). -/
theorem firstBadPlace_usable {s : State} {places : List Nat} (h : ∀ p ∈ places, PlaceUsable s p) :
    firstBadPlace s.dir places = none := by
  induction places with
  | nil => rfl
  | cons p r ih =>
    have hp := h p (by simp)
    simp only [PlaceUsable] at hp
    unfold firstBadPlace askPlace
    simp [hp, ih (fun q hq => h q (by simp [hq]))]

/-! ### Records in slots -/

theorem mem_recordsOf {slots : List (Option Record)} {r : Record} : r ∈ recordsOf slots ↔ some r ∈ slots := by
  simp [recordsOf]

theorem findRecord_some {key : Nat} {slots : List (Option Record)} {r : Record} (h : findRecord key slots = some r) :
    some r ∈ slots ∧ r.key = key := by
  unfold findRecord at h
  have h1 := List.find?_some h
  have h2 := List.mem_of_find?_eq_some h
  exact ⟨mem_recordsOf.1 h2, by simpa using h1⟩

theorem findRecord_none {key : Nat} {slots : List (Option Record)} (h : findRecord key slots = none) :
    ∀ r, some r ∈ slots → r.key ≠ key := by
  unfold findRecord at h
  simp only [List.find?_eq_none, mem_recordsOf] at h
  intro r hr
  simpa using h r hr

/-- With unique keys, a change of the record a key names is a change of that record alone (R5). -/
theorem mapRecord_eq {key : Nat} {f : Record → Record} {slots : List (Option Record)} {r : Record}
    (hu : ((recordsOf slots).map Record.key).Nodup) (hf : findRecord key slots = some r) :
    mapRecord key f slots = replacedIn slots r (f r) := by
  obtain ⟨hr, hk⟩ := findRecord_some hf
  have huniq : ∀ q, some q ∈ slots → q.key = key → q = r := by
    intro q hq hqk
    exact List.inj_on_of_nodup_map hu (mem_recordsOf.2 hq) (mem_recordsOf.2 hr) (hqk.trans hk.symm)
  unfold mapRecord replacedIn
  refine List.map_congr_left (fun o ho => ?_)
  cases o with
  | none => simp
  | some q =>
    by_cases hq : q.key = key
    · have := huniq q ho hq
      subst this
      simp [hq]
    · have : q ≠ r := fun h => hq (h ▸ hk)
      simp [hq, this]

/-- Where a new record goes: a free slot (R5, R11). -/
theorem insertRecord_some {r : Record} {slots l : List (Option Record)} (h : insertRecord r slots = some l) :
    ∃ i : Nat, slots[i]? = some none ∧ l = slots.set i (some r) := by
  induction slots generalizing l with
  | nil => simp [insertRecord] at h
  | cons o rest ih =>
    cases o with
    | none =>
      simp only [insertRecord, Option.some.injEq] at h
      exact ⟨0, rfl, h.symm⟩
    | some q =>
      simp only [insertRecord, Option.map_eq_some_iff] at h
      obtain ⟨l', h1, h2⟩ := h
      obtain ⟨i, h3, h4⟩ := ih h1
      exact ⟨i + 1, by simpa using h3, by simp [← h2, h4]⟩

theorem insertRecord_none {r : Record} {slots : List (Option Record)} : insertRecord r slots = none ↔ none ∉ slots := by
  induction slots with
  | nil => simp [insertRecord]
  | cons o rest ih =>
    cases o with
    | none => simp [insertRecord]
    | some q => simp [insertRecord, ih]

theorem keepLive_eq (slots : List (Option Record)) : keepLive slots = sweptSlots slots := by
  unfold keepLive sweptSlots
  refine List.map_congr_left (fun o _ => ?_)
  cases o with
  | none => rfl
  | some r => simp only [Option.filter, Record.isLive, decide_eq_true_eq]

/-! ### Reference counts -/

theorem countUp_canonical {places : List Nat} {m : List (Nat × Nat)} (h : cellsFrom 0 1024 0 m = true)
    (hp : ∀ p ∈ places, p < 1024) : cellsFrom 0 1024 0 (countUp places m) = true := by
  unfold countUp
  induction places generalizing m with
  | nil => exact h
  | cons p r ih =>
    exact ih (cellSet_canonical h (Nat.zero_le p) (hp p (by simp))) (fun q hq => hp q (by simp [hq]))

/-- +1 for each appearance (R14). -/
theorem cellGet_countUp {places : List Nat} {m : List (Nat × Nat)} (h : cellsFrom 0 1024 0 m = true)
    (hp : ∀ p ∈ places, p < 1024) (q : Nat) : cellGet 0 (countUp places m) q = cellGet 0 m q + places.count q := by
  unfold countUp
  induction places generalizing m with
  | nil => simp
  | cons p r ih =>
    rw [List.foldl_cons, ih (cellSet_canonical h (Nat.zero_le p) (hp p (by simp))) (fun q hq => hp q (by simp [hq])),
      cellGet_cellSet h]
    by_cases hq : q = p
    · subst hq; simp; omega
    · simp [hq, Ne.symm hq]

theorem countDown_canonical {places : List Nat} {m : List (Nat × Nat)} (h : cellsFrom 0 1024 0 m = true)
    (hp : ∀ p ∈ places, p < 1024) : cellsFrom 0 1024 0 (countDown places m) = true := by
  unfold countDown
  induction places generalizing m with
  | nil => exact h
  | cons p r ih =>
    exact ih (cellSet_canonical h (Nat.zero_le p) (hp p (by simp))) (fun q hq => hp q (by simp [hq]))

/-- −1 for each appearance (R14). -/
theorem cellGet_countDown {places : List Nat} {m : List (Nat × Nat)} (h : cellsFrom 0 1024 0 m = true)
    (hp : ∀ p ∈ places, p < 1024) (q : Nat) : cellGet 0 (countDown places m) q = cellGet 0 m q - places.count q := by
  unfold countDown
  induction places generalizing m with
  | nil => simp
  | cons p r ih =>
    rw [List.foldl_cons, ih (cellSet_canonical h (Nat.zero_le p) (hp p (by simp))) (fun q hq => hp q (by simp [hq])),
      cellGet_cellSet h]
    by_cases hq : q = p
    · subst hq; simp; omega
    · simp [hq, Ne.symm hq]

/-! ### What a message leaves of a record -/

theorem clampDelay_map (d : Option Int) : d.map clampDelay = clampedDelay d := by
  cases d with
  | none => rfl
  | some d =>
    have h : clampDelay d = if d < -30 then -30 else if 999 < d then 999 else d := by
      unfold clampDelay
      by_cases h1 : d < -30
      · rw [if_pos h1]; omega
      · by_cases h2 : 999 < d
        · rw [if_neg h1, if_pos h2]; omega
        · rw [if_neg h1, if_neg h2]; omega
    simp only [clampedDelay, Option.map_some, h]

theorem delayClamped_iff (d : Option Int) : delayClamped d = true ↔ DelayOutside d := by
  cases d with
  | none => simp [delayClamped, DelayOutside]
  | some d =>
    have h : DelayOutside (some d) ↔ d < -30 ∨ 999 < d := by simp [DelayOutside]
    rw [h, delayClamped, decide_eq_true_iff, clampDelay]
    omega

/-- The record a POST SERVICE gives (R8, R9, R11). -/
theorem postRecord_posted (f : PostFields) : PostedRecord f (postRecord f) := by
  rcases f with ⟨key, rev, sch, st, pl, dest, delay, via, stops, train⟩
  rcases st with _ | _ | _ | _ | n <;> simp [PostedRecord, postRecord, runStateOf, clampDelay_map]

theorem positionDetail_is (s : State) (key : Nat) : PositionIs s key (positionDetail s key) := by
  unfold PositionIs positionDetail positionOf
  cases h : List.findIdx? (fun x => x == key) s.table.order with
  | none => right; simp at h; grind
  | some i => left; simp [List.findIdx?_eq_some_iff_getElem] at h; grind

/-- The record an applied AMEND SERVICE leaves (R16 to R18). -/
theorem amendRecord_amended {f : AmendFields} (h : ¬ AmendOutOfRange f) (r : Record) : AmendedRecord f r (amendRecord f r) := by
  rcases f with ⟨key, rev, delay, st, pl, train, skip, restore⟩
  refine ⟨rfl, rfl, rfl, rfl, rfl, rfl, rfl, ?_, ?_, ?_, ?_⟩
  · rcases train with _ | _ | n <;> simp [amendRecord]
  · rw [← clampDelay_map]
    rcases st with _ | n
    · cases delay <;> simp [AmendedRun, amendRecord, amendState]
    · rcases n with _ | _ | _ | _ | n <;> cases delay <;> simp [AmendedRun, amendRecord, amendState, runStateOf]
  · simp [amendRecord, amendStops]
  · intro i old hi
    simp [amendRecord, amendStops, List.getElem?_mapIdx, hi, indexList]
    split_ifs <;> simp_all

end Sys2Proof.Machine
end

