-- ==== Sys2Proof/Tests/Slice0.lean ====
section
/-! SUPPORT. Tests on small boards, each value taken from the manual's worked sequences or computed by hand from its rules, and a
witness for the hypotheses of every statement. -/

namespace Sys2Proof.Tests

open Sys2Proof Sys2Proof.Machine

-- Each theorem is checked before the next begins, so that few threads stand at once.
set_option Elab.async false

/-! ### Helpers -/

/-- The state after commands, one after another. -/
def after (s : State) (l : List Instr) : State :=
  l.foldl (fun s c => match exec c s with
    | .next t => t
    | .fault _ => s
    | .refused _ => s) s

/-- A message's header that wants an answer, and one that does not. -/
def asks (tag : Byte) : Header := { tag := tag, reply := true }
def quiet : Header := { tag := 0, reply := false }

/-- An octet received well. -/
def oc (b : Byte) : Octet := { data := b, stopError := false }

/-- A valid overhead record of a board time below 256 minutes or of 10:00 (minute 600), in station state `st`. -/
def stationRecord (hi lo second st : Byte) : Instr :=
  .overheadRecord (oc hi) (oc lo) (oc second) (oc st) (oc (0 - (hi + lo + second + st)))

def entryOf (full : String) (short : Option String) : PlaceEntry :=
  { full := glyphs full, short := short.map glyphs, code := glyphs "ABC" }

def writeOf (place : Nat) (full : String) (short : Option String := none) : WriteFields :=
  { place := place, entry := entryOf full short }

/-- POST SERVICE fields on platform 3, with stops that are neither request stops nor skipped. -/
def posted (key : Nat) (revision : Byte) (scheduled : Int) (state destination : Nat) (delay : Option Int := none)
    (stops : List Nat := []) (platform : String := "3") : PostFields :=
  { key := key, revision := revision, scheduled := scheduled, state := state, platform := glyphs platform,
    destination := destination, delay := delay, via := none,
    stops := stops.map (fun p => { place := p, request := false, skipped := false }), train := none }

def amended (key : Nat) (revision : Byte) : AmendFields :=
  { key := key, revision := revision, delay := none, state := none, platform := none, train := none, skip := none,
    restore := none }

/-- What the result queue holds, entry by entry: tag, outcome and detail. -/
def answers (s : State) : List (Byte × Nat × Nat) :=
  s.results.queue.filterMap (fun e => match e with
    | .result _ tag outcome detail => some (tag, outcome, detail)
    | .read _ _ => none)

/-! ### States -/

/-- A new part of geometry code 1 (256 by 6) released from reset and still scanning; and the same with its scan ended. -/
def scanningPart : State := after State.reset [.resetRelease false true]
def readyPart : State := after scanningPart [.scanEnd]

/-- Board time 10:00:00 taken: SHOWING, "now" 420. -/
def clockedPart : State := after readyPart [stationRecord 0x02 0x58 0 0]

/-- Two places written: 5 (bank A, sector 0) and 600 (bank B, sector 4). -/
def namedPart : State := after clockedPart
  [.writePlace quiet (writeOf 5 "Ashcombe"), .writeComplete true, .writePlace quiet (writeOf 600 "Alder"),
    .writeComplete true]

/-- Three services, order keys 600, 605 and 612, under a hold, so that marks can be read. -/
def servedPart : State := after namedPart
  [.holdBoard quiet, .postService quiet (posted 1 10 600 0 5), .postService quiet (posted 2 10 605 0 600),
    .postService quiet (posted 3 10 600 1 5 (some 12) [600])]

/-- The first service retired: LEAVING under an OPEN window. -/
def leavingPart : State := after servedPart [.retireService quiet 1]

/-- The states of an erase of sectors 2 and 3, one after another. -/
def gatheringPart : State := after namedPart [.eraseSector (asks 1) 3, .eraseSector (asks 2) 2]
def erasingPart : State := after gatheringPart [.gatherWindowExpiry]
def suspendingPart : State := after erasingPart [.suspendErase (asks 3)]
def suspendedPart : State := after suspendingPart [.suspensionComplete]
def writingSuspendedPart : State := after suspendedPart [.writePlace (asks 4) (writeOf 700 "Marlow")]
def writingPart : State := after namedPart [.writePlace (asks 4) (writeOf 700 "Marlow")]
def lockingPart : State := after namedPart [.lockSectors (asks 5) 0x81]
def lockedPart : State := after lockingPart [.lockChangeComplete]

/-- A part whose arbiter has served every request. -/
def idlePart : State := after readyPart
  [.tableJobComplete, .clockJobComplete, .tableJobComplete, .tableJobComplete, .tableJobComplete, .tableJobComplete]

/-- A part with banner and hold, and one whose arbiter is idle for want of requests. -/
def banneredPart : State := after namedPart [.setBanner quiet { text := glyphs "Hello", duration := 60 }]

/-! ### Witnesses: the part as a whole -/

/-- Where every timer but the refresh's is idle or short of its limit, only the refresh can fall due. -/
theorem only_refresh_due {s u : State} (quiet : s.time.valid = false ∧ u.table.window = .closed ∧ u.dir.op = .ready ∧
      u.paint.hold = .free ∧ u.paint.banner = none ∧ u.paint.callingScroll = .still ∧ u.paint.bannerScroll = .still ∧
      u.frame.shift = none ∧ u.key.timer = none) (fresh : u.time.freshTimer < 60000 * u.settings.holdover) (c : Instr) :
    FallsDue s u c ↔ c = .refresh ∧ 10 ≤ u.frame.refreshTimer := by
  unfold FallsDue MinuteEnds SectorDue PauseDue StepFallsDue
  simp [quiet, Nat.not_le.2 fresh]

/-- The ready part with its refresh timer `n` ms into its period. -/
def refreshingPart (n : Nat) : State :=
  readyPart.withFrame { readyPart.frame with refreshTimer := n }

theorem due_refreshing {n : Nat} (hn : n = 8 ∨ n = 9) (c : Instr) :
    FallsDue (refreshingPart n) (millisecondOn (refreshingPart n)) c ↔ c = .refresh ∧ 9 ≤ n := by
  have h : (millisecondOn (refreshingPart n)).frame.refreshTimer = n + 1 := rfl
  rw [only_refresh_due (by rcases hn with rfl | rfl <;> decide +kernel) (by rcases hn with rfl | rfl <;> decide +kernel), h]
  exact and_congr Iff.rfl (by omega)

theorem window_ready (n : Nat) : WindowInv (refreshingPart n) := by
  have h : WindowInv readyPart := by
    have hw : readyPart.table.window = .closed := by decide +kernel
    unfold WindowInv SettingsOK State.records
    rw [hw]
    decide +kernel
  exact h

/-- No timer due at 8 ms of the refresh period, the refresh alone at 9. -/
theorem witness_EmptyQueuePassesTime :
    (State.reset.pending = [] ∧ State.reset.phase = .inReset) ∧
    (∀ n, (refreshingPart n).pending = [] ∧ (refreshingPart n).phase = .running ∧ WindowInv (refreshingPart n) ∧
      ∀ e k cause, (refreshingPart n).dir.op ≠ .suspended e k cause) ∧
    (∀ c, ¬ FallsDue (refreshingPart 8) (millisecondOn (refreshingPart 8)) c) ∧
    FallsDue (refreshingPart 9) (millisecondOn (refreshingPart 9)) .refresh ∧
    ∀ d, FallsDue (refreshingPart 9) (millisecondOn (refreshingPart 9)) d → d = .refresh := by
  have h : readyPart.pending = [] ∧ readyPart.phase = .running ∧ readyPart.dir.op = .ready := by decide +kernel
  refine ⟨by decide +kernel, fun n => ⟨h.1, h.2.1, window_ready n, fun e k cause hd => ?_⟩, fun c hc => ?_,
    (due_refreshing (.inr rfl) _).2 ⟨rfl, by omega⟩, fun d hd => ((due_refreshing (.inr rfl) d).1 hd).1⟩
  · have : (refreshingPart n).dir.op = .ready := h.2.2
    rw [this] at hd
    cases hd
  · exact absurd ((due_refreshing (.inl rfl) c).1 hc).2 (by omega)

theorem witness_HeldInResetTakesNothing : State.reset.phase = .inReset ∧
    (∀ c : Instr, c = .refresh ∨ c = .staffKeyInputChange true → c ≠ .powerOn ∧ c ≠ .resetLineAssert ∧
      ∀ a b, c ≠ .resetRelease a b) := by
  refine ⟨rfl, ?_⟩
  rintro c (rfl | rfl) <;> simp

theorem witness_ServiceTableInvariantKept : TableInv leavingPart ∧ ∃ t, step leavingPart = .next t := by
  refine ⟨?_, _, rfl⟩
  unfold TableInv RecordOK DelayFits State.references State.records
  decide +kernel

theorem witness_SweepWindowInvariantKept :
    (WindowInv leavingPart ∧ ∃ t, step leavingPart = .next t) ∧
    (WindowInv (after leavingPart [.powerOn]) ∧ (after leavingPart [.powerOn]).phase = .inReset) := by
  refine ⟨⟨?_, _, rfl⟩, ?_, by decide +kernel⟩
  rotate_left 1
  · have h : (after leavingPart [.powerOn]).table.window = .closed := by decide +kernel
    unfold WindowInv SettingsOK State.records
    rw [h]
    decide +kernel
  have h : leavingPart.table.window = .opened 3000 15000 := by decide +kernel
  unfold WindowInv SettingsOK
  rw [h]
  decide +kernel

theorem witness_TimeInvariantKept : TimeInv clockedPart ∧ ∃ t, step clockedPart = .next t := by
  refine ⟨?_, _, rfl⟩
  have h : clockedPart.time.freshness = .fresh := by decide +kernel
  unfold TimeInv SettingsOK
  rw [h]
  decide +kernel

/-- A queue with a read and a decided result. -/
def queuedPart : State := after servedPart [.readService (asks 1) 1, .readBoard (asks 2), .retireService (asks 3) 9]

theorem witness_ResultQueueInvariantKept : QueueInv queuedPart ∧ ∃ t, step queuedPart = .next t := by
  have h : queuedPart.results.queue = [.read 1 (.service 1), .read 2 .board, .result 0x03 3 3 0] := by decide +kernel
  refine ⟨⟨by rw [h]; decide, fun o => ?_⟩, _, rfl⟩
  rw [h]
  rcases o with k | k | _
  · by_cases hk : k = 1 <;> simp [Entry.reads, List.filter, hk, eq_comm]
  · simp [Entry.reads, List.filter]
  · simp [Entry.reads, List.filter]

theorem witness_ArbiterAtRestKept : Settled idlePart ∧ ∃ t, step idlePart = .next t := by
  refine ⟨⟨by decide +kernel, by decide +kernel, fun _ slot => ?_, by decide +kernel, by decide +kernel⟩, _, rfl⟩
  cases slot <;> decide +kernel

theorem witness_idle : idlePart.paint.job = none ∧ idlePart.paint.dirty = [] := by decide +kernel

theorem witness_PaintInvariantKept : SettingsOK idlePart.settings ∧ PaintInv idlePart ∧ ∃ t, step idlePart = .next t := by
  refine ⟨by unfold SettingsOK; decide +kernel, ?_, _, rfl⟩
  unfold PaintInv SetBelow ImageOK
  have h1 : idlePart.paint.job = none := by decide +kernel
  have h2 : idlePart.paint.banner = none := by decide +kernel
  have h3 : idlePart.paint.callingScroll = .still := by decide +kernel
  have h4 : idlePart.paint.bannerScroll = .still := by decide +kernel
  rw [h1, h2, h3, h4]
  refine ⟨by decide +kernel, by decide +kernel, by decide +kernel, by decide +kernel, by decide +kernel, by simp, by simp,
    trivial, trivial, by decide +kernel, by decide +kernel, by simp, by simp, by decide +kernel⟩

theorem witness_DirectoryInvariantKept : TableInv servedPart ∧ DirectoryInv servedPart ∧ ∃ t, step servedPart = .next t := by
  refine ⟨?_, ?_, _, rfl⟩
  · unfold TableInv RecordOK DelayFits State.references State.records
    decide +kernel
  · have h : servedPart.dir.op = .ready := by decide +kernel
    unfold DirectoryInv SetBelow
    rw [h]
    refine ⟨by decide +kernel, by decide +kernel, trivial, ?_, by decide +kernel, by decide +kernel⟩
    intro _
    simp only [begunSector, writingSlot]
    decide +kernel

/-! ### Witnesses: the Service Table -/

/-- The record a state holds under a key. -/
def recordOf (s : State) (key : Nat) : Record :=
  (findRecord key s.table.slots).getD (postRecord (posted 0 0 0 0 0))

/-- Fields that fail R9, each by one step past a boundary. -/
def badPosts : List PostFields :=
  [posted 0 1 600 0 5, posted 1 1 (-1) 0 5, posted 1 1 1800 0 5, posted 1 1 600 4 5, posted 1 1 600 0 1024, posted 1 1 600 1 5,
    posted 1 1 600 0 5 none [] "", posted 1 1 600 0 5 none [] "ABCD", posted 1 1 600 0 5 none [] "a",
    posted 1 1 600 0 5 none (List.replicate 25 5), posted 1 1 600 0 5 none [1024],
    { posted 1 1 600 0 5 with train := some 0 }, { posted 1 1 600 0 5 with train := some 17 },
    { posted 1 1 600 0 5 with via := some 1024 }]

/-- Fields that pass R9 at the ends of their ranges. -/
def goodPosts : List PostFields :=
  [posted 65535 255 0 3 1023, posted 1 0 1799 1 0 (some 1000) (List.replicate 24 5) "A9Z",
    { posted 9 1 600 2 5 (some (-31)) with train := some 16, via := some 1023 }]

theorem listening_served : Listening servedPart := by unfold Listening; decide +kernel
theorem listening_named : Listening namedPart := by unfold Listening; decide +kernel
theorem listening_leaving : Listening leavingPart := by unfold Listening; decide +kernel

theorem witness_PostRefusedOnItsFields : Listening servedPart ∧ (∀ f ∈ badPosts, PostOutOfRange f) ∧
    ∀ f ∈ goodPosts, ¬ PostOutOfRange f := by
  refine ⟨listening_served, ?_, ?_⟩ <;> (unfold PostOutOfRange PlatformCode; decide +kernel)

/-- Services 1 and 2 against revisions at distance 0, 128 and 255, and at 1 and 127. -/
theorem witness_DuplicateAndStaleChangeNothing : Listening servedPart ∧
    findRecord 1 servedPart.table.slots = some (recordOf servedPart 1) ∧ (recordOf servedPart 1).life = .live ∧
    (∀ rev ∈ ([10, 138, 9] : List Byte), ¬ Newer rev (recordOf servedPart 1).revision ∧
      ¬ PostOutOfRange (posted 1 rev 600 0 5) ∧ ¬ AmendOutOfRange (amended 1 rev)) ∧
    (∀ rev ∈ ([11, 137] : List Byte), Newer rev (recordOf servedPart 1).revision) ∧
    (revisionDistance 10 10 = 0 ∧ 128 ≤ revisionDistance 138 10 ∧ 128 ≤ revisionDistance 9 10) := by
  refine ⟨listening_served, by decide +kernel, by decide +kernel, ?_, ?_, by decide⟩
  · unfold Newer PostOutOfRange PlatformCode AmendOutOfRange PlatformCode; decide +kernel
  · unfold Newer; decide +kernel

theorem witness_PostRefusedAtFirstBadPlace :
    (Listening servedPart ∧ ¬ PostOutOfRange (posted 9 1 600 0 5 none [600, 7]) ∧
      (∀ r ∈ findRecord 9 servedPart.table.slots, Newer 1 r.revision) ∧
      PlaceFailure servedPart (postPlaces (posted 9 1 600 0 5 none [600, 7])) 7 7) ∧
    (Listening gatheringPart ∧ PlaceFailure gatheringPart (postPlaces (posted 9 1 600 0 300)) 8 300) ∧
    (Listening (after servedPart [.restart]) ∧
      PlaceFailure (after servedPart [.restart]) (postPlaces (posted 9 1 600 0 5)) 9 0) := by
  refine ⟨⟨listening_served, ?_, by unfold Newer; decide +kernel, .inr ⟨by decide +kernel, [5, 600], 7, [], rfl, ?_, rfl, .inr ?_⟩⟩,
    ⟨by unfold Listening; decide +kernel, .inr ⟨by decide +kernel, [], 300, [], rfl, by simp, rfl, .inl ?_⟩⟩,
    by unfold Listening; decide +kernel, .inl ?_⟩
  · unfold PostOutOfRange PlatformCode; decide +kernel
  · unfold PlaceUsable; decide +kernel
  · decide +kernel
  · decide +kernel
  · decide +kernel

theorem table_inv_served : TableInv servedPart := by
  unfold TableInv RecordOK DelayFits State.references State.records; decide +kernel

theorem table_inv_leaving : TableInv leavingPart := witness_ServiceTableInvariantKept.1

theorem witness_PostCreatesRecord : Listening servedPart ∧ TableInv servedPart ∧
    (∀ f ∈ [posted 65535 255 0 3 600, posted 9 0 1799 1 5 (some 1000)], ¬ PostOutOfRange f ∧ f.key < 65536 ∧
      findRecord f.key servedPart.table.slots = none ∧ ∀ p ∈ postPlaces f, PlaceUsable servedPart p) ∧
    none ∈ servedPart.table.slots ∧ DelayOutside (some 1000) ∧ DelayOutside (some (-31)) ∧ ¬ DelayOutside (some 999) ∧
    ¬ DelayOutside (some (-30)) := by
  refine ⟨listening_served, table_inv_served, ?_, by decide +kernel, ?_⟩
  · unfold PostOutOfRange PlatformCode PlaceUsable; decide +kernel
  · unfold DelayOutside; decide

/-- A full table: services 1 to 96, all naming place 5, under a window and with service 1 LIVE or LEAVING. -/
def fullPart (window : SweepWindow) (life : Lifecycle) : State :=
  let slots := (List.range 96).map (fun i =>
    some { postRecord (posted (i + 1) 1 (600 + i) 0 5) with life := if i = 0 then life else .live })
  let s := namedPart.withTable { slots := slots, order := runningOrder [] slots, window := window }
  s.withDir { s.dir with counts := [(5, 96)] }

theorem full_counts {s : State} (hc : s.dir.counts = [(5, 96)])
    (hr : s.records.flatMap referencesOf = List.replicate 96 5) (p : Nat) :
    cellGet 0 s.dir.counts p = s.references p := by
  rw [State.references, hr, hc, List.count_replicate]
  by_cases h : p = 5
  · subst h; rfl
  · simp [cellGet, h, Ne.symm h]

/-- The order and the counts do not depend on the window. -/
theorem table_inv_full_live (window : SweepWindow) : TableInv (fullPart window .live) := by
  have h : TableInv (fullPart .closed .live) := by
    refine ⟨by decide +kernel, by decide +kernel, ?_, by decide +kernel, by decide +kernel, fun p _ => full_counts ?_ ?_ p⟩
    · unfold RecordOK DelayFits State.records; decide +kernel
    · decide +kernel
    · unfold State.records; decide +kernel
  exact h

theorem table_inv_full_leaving : TableInv (fullPart (.opened 3000 15000) (.leaving .retired)) := by
  refine ⟨by decide +kernel, by decide +kernel, ?_, by decide +kernel, by decide +kernel, fun p _ => full_counts ?_ ?_ p⟩
  · unfold RecordOK DelayFits State.records; decide +kernel
  · decide +kernel
  · unfold State.records; decide +kernel

theorem witness_PostOnFullTable :
    (∀ s ∈ [fullPart .closed .live, fullPart (.opened 3000 15000) .live,
        fullPart (.opened 3000 15000) (.leaving .retired)],
      Listening s ∧ findRecord 500 s.table.slots = none ∧ PlaceUsable s 5 ∧ none ∉ s.table.slots) ∧
    (¬ PostOutOfRange (posted 500 1 600 0 5) ∧ postPlaces (posted 500 1 600 0 5) = [5]) ∧
    TableInv (fullPart .closed .live) ∧ TableInv (fullPart (.opened 3000 15000) .live) ∧
    TableInv (fullPart (.opened 3000 15000) (.leaving .retired)) := by
  refine ⟨?_, ?_, table_inv_full_live _, table_inv_full_live _, table_inv_full_leaving⟩
  · unfold Listening PlaceUsable; decide +kernel
  · unfold PostOutOfRange PlatformCode; decide +kernel

theorem witness_PostReplacesOrRevives :
    (Listening servedPart ∧ TableInv servedPart ∧ findRecord 2 servedPart.table.slots = some (recordOf servedPart 2) ∧
      Newer 11 (recordOf servedPart 2).revision ∧ ¬ PostOutOfRange (posted 2 11 605 0 5) ∧
      ∀ p ∈ postPlaces (posted 2 11 605 0 5), PlaceUsable servedPart p) ∧
    (Listening leavingPart ∧ TableInv leavingPart ∧
      findRecord 1 leavingPart.table.slots = some (recordOf leavingPart 1) ∧
      (recordOf leavingPart 1).life = .leaving .retired ∧ Newer 137 (recordOf leavingPart 1).revision ∧
      ∀ p ∈ postPlaces (posted 1 137 605 0 5), PlaceUsable leavingPart p) := by
  refine ⟨⟨listening_served, table_inv_served, by decide +kernel, ?_, ?_, ?_⟩, listening_leaving, table_inv_leaving,
    by decide +kernel, by decide +kernel, ?_, ?_⟩
  all_goals first | (unfold Newer; decide +kernel) | (unfold PostOutOfRange PlatformCode; decide +kernel) |
    (unfold PlaceUsable; decide +kernel)

theorem witness_AmendRefused : Listening servedPart ∧ Listening leavingPart ∧
    (∀ f ∈ [amended 0 1, { amended 1 1 with state := some 4 }, { amended 1 1 with platform := some [] },
      { amended 1 1 with train := some 17 }, { amended 1 1 with skip := some (List.replicate 25 0) },
      { amended 1 1 with restore := some (List.replicate 25 0) },
      { amended 1 1 with skip := some [0], restore := some [0] }], AmendOutOfRange f) ∧
    (¬ AmendOutOfRange (amended 9 1) ∧ findRecord 9 servedPart.table.slots = none) ∧
    (findRecord 1 leavingPart.table.slots = some (recordOf leavingPart 1) ∧
      (recordOf leavingPart 1).life = .leaving .retired) ∧
    (findRecord 3 servedPart.table.slots = some (recordOf servedPart 3) ∧ (recordOf servedPart 3).life = .live ∧
      Newer 11 (recordOf servedPart 3).revision ∧
      AmendContentFault { amended 3 11 with skip := some [1] } (recordOf servedPart 3) ∧
      AmendContentFault { amended 3 11 with restore := some [1] } (recordOf servedPart 3)) ∧
    AmendContentFault { amended 1 11 with state := some 1 } (recordOf servedPart 1) := by
  refine ⟨listening_served, listening_leaving, ?_, ?_, by decide +kernel, ?_, .inr (.inr ?_)⟩
  · unfold AmendOutOfRange PlatformCode; decide +kernel
  · unfold AmendOutOfRange PlatformCode; decide +kernel
  · unfold Newer AmendContentFault; decide +kernel
  · decide +kernel

theorem witness_AmendApplied : Listening servedPart ∧ TableInv servedPart ∧
    findRecord 3 servedPart.table.slots = some (recordOf servedPart 3) ∧ (recordOf servedPart 3).life = .live ∧
    ∀ f ∈ [{ amended 3 11 with skip := some [0], state := some 3 }, { amended 3 137 with delay := some 1000 }],
      ¬ AmendOutOfRange f ∧ Newer f.revision (recordOf servedPart 3).revision ∧
      ¬ AmendContentFault f (recordOf servedPart 3) := by
  refine ⟨listening_served, table_inv_served, by decide +kernel, by decide +kernel, ?_⟩
  unfold AmendOutOfRange PlatformCode Newer AmendContentFault
  decide +kernel

/-- The served part under a window length of 0. -/
def atOncePart : State := after servedPart [.setBoard quiet { sweepLength := some 0 }]

theorem witness_RetireService :
    (Listening servedPart ∧ TableInv servedPart ∧ findRecord 1 servedPart.table.slots = some (recordOf servedPart 1) ∧
      (recordOf servedPart 1).life = .live ∧ 0 < servedPart.settings.sweepLength ∧
      findRecord 9 servedPart.table.slots = none) ∧
    (Listening leavingPart ∧ TableInv leavingPart ∧
      findRecord 1 leavingPart.table.slots = some (recordOf leavingPart 1) ∧ (recordOf leavingPart 1).life ≠ .live) ∧
    (Listening atOncePart ∧ TableInv atOncePart ∧ findRecord 1 atOncePart.table.slots = some (recordOf atOncePart 1) ∧
      (recordOf atOncePart 1).life = .live ∧ atOncePart.settings.sweepLength = 0) := by
  refine ⟨⟨listening_served, table_inv_served, by decide +kernel, by decide +kernel, by decide +kernel,
    by decide +kernel⟩, ⟨listening_leaving, table_inv_leaving, by decide +kernel, by decide +kernel⟩, ?_, ?_,
    by decide +kernel, by decide +kernel, by decide +kernel⟩
  · unfold Listening; decide +kernel
  · unfold TableInv RecordOK DelayFits State.references State.records; decide +kernel

theorem witness_ClearBoardEmptiesTable : Listening servedPart ∧ TableInv servedPart ∧ servedPart.table.order ≠ [] ∧
    Listening namedPart ∧ namedPart.table.order = [] := by
  exact ⟨listening_served, table_inv_served, by decide +kernel, listening_named, by decide +kernel⟩

theorem witness_SweepAtExpiry : Running leavingPart ∧ TableInv leavingPart ∧ leavingPart.table.window ≠ .closed :=
  ⟨by unfold Running; decide +kernel, table_inv_leaving, by decide +kernel⟩

/-- A window left OPEN after its only LEAVING record was revived. -/
theorem witness_ExpiryWithNothingLeaving :
    let s := fullPart (.opened 3000 15000) .live
    Running s ∧ TableInv s ∧ s.table.window ≠ .closed ∧ ∀ r ∈ s.records, r.life = .live := by
  refine ⟨by unfold Running; decide +kernel, table_inv_full_live _, by decide +kernel, ?_⟩
  unfold State.records; decide +kernel

theorem witness_RunningOrderIsSorted : ((recordsOf servedPart.table.slots).map Record.key).Nodup := by decide +kernel

theorem witness_ReadsAreQueuedOrMerged : Listening queuedPart := by unfold Listening; decide +kernel

/-! ### Witnesses: service time and the board state -/

/-- The served part with its board time moved to a minute, and the rollover held or not. -/
def timedPart (minute : Nat) (rollHold : Bool) : State :=
  servedPart.withTime { servedPart.time with minute := minute, second := 30, rollHold := rollHold }

theorem table_inv_withTime {s : State} (k : Timekeeper) (h : TableInv s) : TableInv (s.withTime k) := h

theorem settings_withTime {s : State} (k : Timekeeper) (h : SettingsOK s.settings) :
    SettingsOK (s.withTime k).settings := h

theorem settings_served : SettingsOK servedPart.settings := by unfold SettingsOK; decide +kernel

theorem listening_withTime {s : State} (k : Timekeeper) (h : Listening s) : Listening (s.withTime k) := h

theorem valid_withTime {s : State} (m n : Nat) (r : Bool) (h : s.time.valid = true) :
    (s.withTime { s.time with minute := m, second := n, rollHold := r }).time.valid = true := h

theorem table_inv_timed (minute : Nat) (rollHold : Bool) : TableInv (timedPart minute rollHold) := by
  unfold timedPart; exact table_inv_withTime _ table_inv_served

theorem settings_timed (minute : Nat) (rollHold : Bool) : SettingsOK (timedPart minute rollHold).settings := by
  unfold timedPart; exact settings_withTime _ settings_served

theorem listening_timed (minute : Nat) (rollHold : Bool) : Listening (timedPart minute rollHold) := by
  unfold timedPart; exact listening_withTime _ listening_served

theorem valid_timed (minute : Nat) (rollHold : Bool) : (timedPart minute rollHold).time.valid = true := by
  unfold timedPart; exact valid_withTime _ _ _ (by decide +kernel)

theorem witness_MinuteEventStages :
    (∀ minute rollHold, Running (timedPart minute rollHold) ∧ TableInv (timedPart minute rollHold) ∧
      SettingsOK (timedPart minute rollHold).settings ∧ (timedPart minute rollHold).time.valid = true) ∧
    (((timedPart 179 true).time.minute + 1) % 1440 = (timedPart 179 true).settings.origin) ∧
    (((timedPart 1439 false).time.minute + 1) % 1440 ≠ (timedPart 1439 false).settings.origin) ∧
    (readyPart.phase = .running ∧ readyPart.time.valid = false) := by
  exact ⟨fun m r => ⟨(listening_timed m r).1, table_inv_timed m r, settings_timed m r, valid_timed m r⟩,
    by decide +kernel, by decide +kernel, by decide +kernel⟩

/-- The octets of a valid record at minute 256 hi + lo. -/
theorem witness_StationTimeTaken :
    (∀ minute rollHold, Listening (timedPart minute rollHold) ∧ TableInv (timedPart minute rollHold) ∧
      SettingsOK (timedPart minute rollHold).settings) ∧
    RecordGood (oc 0x05) (oc 0x9F) (oc 59) (oc 0) (oc 0x21) ∧ (256 * 0x05 + 0x9F = 1439) ∧
    RecordGood (oc 0x05) (oc 0xA0) (oc 59) (oc 0) (oc 0x20) ∧ (256 * 0x05 + 0xA0 = 1440) ∧
    RecordGood (oc 0) (oc 0xB2) (oc 29) (oc 0) (oc 0x31) ∧
    (((60 * 178 + 29 : Int) - (60 * 178 + 30)) % 86400 = 86399) ∧
    (((60 * 178 + 32 : Int) - (60 * 178 + 30)) % 86400 = 2) ∧
    (((60 * 898 + 30 : Int) - (60 * 178 + 30)) % 86400 = 43200) ∧
    (((60 * 898 + 31 : Int) - (60 * 178 + 30)) % 86400 = 43201) ∧
    (Listening readyPart ∧ TableInv readyPart ∧ SettingsOK readyPart.settings ∧ readyPart.time.valid = false ∧
      readyPart.time.minute < 1440 ∧ readyPart.time.second < 60) := by
  refine ⟨fun m r => ⟨listening_timed m r, table_inv_timed m r, settings_timed m r⟩, by unfold RecordGood; decide, by decide,
    by unfold RecordGood; decide, by decide, by unfold RecordGood; decide, by decide, by decide, by decide, by decide, ?_, ?_,
    ?_, by decide +kernel⟩
  · unfold Listening; decide +kernel
  · unfold TableInv RecordOK DelayFits State.references State.records; decide +kernel
  · unfold SettingsOK; decide +kernel

theorem witness_FeedLapses :
    (Running servedPart ∧ BoardIs servedPart.feed.station servedPart.time.freshness servedPart.time.valid servedPart.board ∧
      servedPart.time.freshness = .fresh) ∧
    (Running (after servedPart [.feedLapsed]) ∧ (after servedPart [.feedLapsed]).time.freshness = .lapsed) := by
  unfold Running BoardIs; decide +kernel

theorem witness_OverheadRecordTaken :
    Listening servedPart ∧ BoardIs servedPart.feed.station servedPart.time.freshness servedPart.time.valid servedPart.board ∧
    RecordGood (oc 0x02) (oc 0x58) (oc 0) (oc 3) (oc 0xA3) ∧ ¬ RecordGood (oc 0x02) (oc 0x58) (oc 0) (oc 3) (oc 0xA4) ∧
    ¬ RecordGood (oc 0x02) (oc 0x58) (oc 0) (oc 3) { data := 0xA3, stopError := true } ∧
    StationCodeIs 3 .dark ∧ (∀ st, ¬ StationCodeIs 4 st) := by
  refine ⟨listening_served, by unfold BoardIs; decide +kernel, ?_, ?_, ?_, by unfold StationCodeIs; decide, ?_⟩
  · unfold RecordGood; decide
  · unfold RecordGood; decide
  · unfold RecordGood; decide
  · intro st; cases st <;> (unfold StationCodeIs; decide)

/-! ### Witnesses: the feed line -/

/-- A part whose Feed Receiver stands in an alignment, having taken octets. -/
def alignedPart (a : Machine.Alignment) (position sighting : Option Nat) (gathered : List Octet) : State :=
  namedPart.withFeed { namedPart.feed with
    started := true, alignment := a, position := position, sighting := sighting, gathered := gathered }

theorem listening_withFeed {s : State} (f : FeedReceiver) (h : Listening s) (hf : f.held = s.feed.held) :
    Listening (s.withFeed f) := ⟨h.1, hf.trans h.2⟩

theorem listening_aligned (a : Machine.Alignment) (p q : Option Nat) (g : List Octet) : Listening (alignedPart a p q g) := by
  unfold alignedPart; exact listening_withFeed _ listening_named rfl

theorem feed_aligned (a : Machine.Alignment) (p q : Option Nat) (g : List Octet) :
    (alignedPart a p q g).feed.alignment = a ∧ (alignedPart a p q g).feed.position = p ∧
      (alignedPart a p q g).feed.sighting = q ∧ (alignedPart a p q g).feed.gathered = g := by
  unfold alignedPart; exact ⟨rfl, rfl, rfl, rfl⟩

theorem delivers_octet (o : Octet) (s : State) : Delivers (.feedOctet o) o s := .inl rfl
theorem delivers_missing (a : Machine.Alignment) (p q : Option Nat) (g : List Octet) :
    Delivers .missingOctet { data := 0, stopError := true } (alignedPart a p q g) := by
  unfold alignedPart; exact .inr ⟨rfl, rfl, rfl⟩

/-- A span of 63 octets with one pair of patterns at position p, to be ended by one more octet. -/
def spanWith (p : Nat) : List Octet :=
  (List.range 63).map (fun i => oc (if i = p then 0x1B else if i = p + 32 then 0xE4 else 0))

theorem witness_AlignmentSought :
    (∀ a p q g, Listening (alignedPart a p q g)) ∧
    (∀ a p q g, (alignedPart a p q g).feed.alignment = a) ∧ (spanWith 30).length = 63 ∧
    SpanQualifies (spanWith 30 ++ [oc 0]) 30 ∧ (∀ q < 64, SpanQualifies (spanWith 30 ++ [oc 0]) q → q = 30) ∧
    (∀ q < 64, ¬ SpanQualifies (List.replicate 64 (oc 0x1B)) q) ∧
    GoodOctet (oc 0xE4) 0xE4 ∧
    ¬ GoodOctet (oc 0x1B) 0xE4 := by
  have key : ∀ (l : List Octet) (p : Nat), SpanQualifies l p ↔ (p < 32 ∧ ∃ a ∈ l[p]?, ∃ b ∈ l[p + 32]?,
      a.stopError = false ∧ b.stopError = false ∧
        ((a.data = 0x1B ∧ b.data = 0xE4) ∨ (a.data = 0xE4 ∧ b.data = 0x1B))) := by
    intro l p; unfold SpanQualifies; simp only [Option.mem_def]; grind
  refine ⟨listening_aligned, fun a p q g => (feed_aligned a p q g).1, rfl, ?_, ?_, ?_, by unfold GoodOctet; decide, by unfold GoodOctet; decide⟩
  · rw [key]; decide
  · simp only [key]; decide
  · simp only [key]; decide

theorem witness_AlignmentKeptOrLost :
    (∀ a p q g, Listening (alignedPart a p q g)) ∧
    (∃ mark, ([true, false, false, false, true] : List Bool) = (mark :: [false, false, false, true]).take 6 ∧
      (mark = false ↔ GoodOctet (oc 0) (framePattern true))) ∧
    (([true, false, false, false, true] : List Bool).take namedPart.settings.alignWindow).count true = 2 ∧
    (([true, false, false, false, false, true] : List Bool).take namedPart.settings.alignWindow).count true = 1 ∧
    namedPart.unpacker.state = .searching ∧ (Listening namedPart ∧ namedPart.feed.started = false) := by
  refine ⟨listening_aligned, ⟨true, rfl, ?_⟩, by decide +kernel, by decide +kernel, by decide +kernel, listening_named,
    by decide +kernel⟩
  unfold GoodOctet framePattern; decide

theorem witness_SuperframeFollowed :
    (∀ a p q g, Listening (alignedPart a p q g)) ∧ GoodOctet (oc 0xA5) 0xA5 ∧ ¬ GoodOctet (oc 0xA4) 0xA5 ∧
    ∀ a p q g, (alignedPart a p q g).feed.alignment = a ∧ (alignedPart a p q g).feed.position = p ∧
      (alignedPart a p q g).feed.sighting = q ∧ (alignedPart a p q g).feed.gathered = g := by
  exact ⟨listening_aligned, by unfold GoodOctet; decide, by unfold GoodOctet; decide, feed_aligned⟩

/-- A part in the middle of a frame with its unpacker in a state. -/
def unpackingPart (st : UnpackState) (buffer : List Octet) : State :=
  (alignedPart (.aligned 31 true []) (some 2) none []).withUnpacker { state := st, buffer := buffer, badCount := 65535 }

theorem unpacking (st : UnpackState) (b : List Octet) : Listening (unpackingPart st b) ∧
    (unpackingPart st b).feed.alignment = .aligned 31 true [] ∧ (unpackingPart st b).unpacker.state = st ∧
    (unpackingPart st b).unpacker.buffer = b := by
  have h {s : State} (u : Unpacker) (hl : Listening s) (ha : s.feed.alignment = .aligned 31 true []) :
      Listening (s.withUnpacker u) ∧ (s.withUnpacker u).feed.alignment = .aligned 31 true [] ∧
        (s.withUnpacker u).unpacker.state = u.state ∧ (s.withUnpacker u).unpacker.buffer = u.buffer :=
    ⟨hl, ha, rfl, rfl⟩
  unfold unpackingPart
  exact h _ (listening_aligned _ _ _ _) (feed_aligned _ _ _ _).1

/-- RETIRE SERVICE of key 1, tag 9, answer wanted: length 7, the key 0x0001, and its CRC; and a message of kind 0x7F. -/
def retireOctets : List Byte :=
  [0xC3, 7, 0x03, 9, 1, 0, 1] ++ crcOctets [7, 0x03, 9, 1, 0, 1]
def strangeOctets : List Byte :=
  [0xC3, 5, 0x7F, 9, 1] ++ crcOctets [5, 0x7F, 9, 1]

theorem settled_named : Settled namedPart := by
  refine ⟨by decide +kernel, by decide +kernel, fun h => ?_, by decide +kernel, by decide +kernel⟩
  exact absurd h (by decide +kernel)

theorem settled_unpacking (st : UnpackState) (b : List Octet) : Settled (unpackingPart st b) := by
  have h {s : State} (f : FeedReceiver) (u : Unpacker) (hs : Settled s) : Settled ((s.withFeed f).withUnpacker u) := hs
  unfold unpackingPart alignedPart
  exact h _ _ settled_named

theorem witness_PayloadUnpacked :
    (∀ st b, Listening (unpackingPart st b) ∧ (unpackingPart st b).feed.alignment = .aligned 31 true [] ∧
      (unpackingPart st b).unpacker.state = st ∧ (unpackingPart st b).unpacker.buffer = b) ∧
    GoodOctet (oc 0xC3) 0xC3 ∧ ¬ GoodOctet (oc 0xC2) 0xC3 ∧
    (5 ≤ (oc 5).data.toNat ∧ (oc 250).data.toNat ≤ 250 ∧ (oc 4).data.toNat < 5 ∧ 250 < (oc 251).data.toNat) ∧
    (∀ x ∈ ([oc 0xC3] ++ [oc 251]).drop 1, ¬ GoodOctet x 0xC3) ∧
    (FoundBad (unpackingPart .length [oc 0xC3]).unpacker (oc 251) ∧ FoundBad (unpackingPart .length [oc 0xC3]).unpacker (oc 4)) ∧
    (FoundBad (unpackingPart (.body 4) [oc 0xC3, oc 7, oc 0xC3]).unpacker { data := 7, stopError := true } ∧
      ∃ x ∈ ([oc 0xC3, oc 7, oc 0xC3] ++ [({ data := 7, stopError := true } : Octet)]).drop 1, GoodOctet x 0xC3) ∧
    (FoundBad (unpackingPart (.body 1) ((retireOctets.dropLast).map oc)).unpacker (oc 0) ∧ retireOctets.getLast? ≠ some 0) ∧
    ∀ st b, Settled (unpackingPart st b) := by
  have hu : ∀ st b, (unpackingPart st b).unpacker.state = st ∧ (unpackingPart st b).unpacker.buffer = b :=
    fun st b => (unpacking st b).2.2
  refine ⟨unpacking, ?_, ?_, by decide, ?_, ⟨.inl ?_, .inl ?_⟩, ⟨.inr ⟨4, (hu _ _).1, .inl rfl⟩, oc 0xC3, by decide, ?_⟩,
    ⟨.inr ⟨1, (hu _ _).1, .inr ⟨by decide, ?_⟩⟩, by decide +kernel⟩, settled_unpacking⟩
  · unfold GoodOctet; decide
  · unfold GoodOctet; decide
  · unfold GoodOctet; decide
  · exact ⟨(hu _ _).1, by decide⟩
  · exact ⟨(hu _ _).1, by decide⟩
  · unfold GoodOctet; decide
  · rw [(hu _ _).2]
    rintro ⟨marker, body, h⟩
    have hl : body.length = 6 := by
      have := congrArg List.length h
      simp [retireOctets, crcOctets, octets2] at this
      omega
    have hb : (((retireOctets.dropLast).map oc ++ [oc 0]).map Octet.data).drop 1 = body ++ crcOctets body := by rw [h]; rfl
    have h6 : ((((retireOctets.dropLast).map oc ++ [oc 0]).map Octet.data).drop 1).take 6 = body := by
      rw [hb, List.take_left' hl]
    rw [← h6] at hb
    exact absurd hb (by decide +kernel)

theorem listening_unpacking (st : UnpackState) (b : List Octet) : Listening (unpackingPart st b) := (unpacking st b).1

theorem witness_GoodMessageRunsItsCommand :
    (∀ octets ∈ [retireOctets, strangeOctets],
      (octets.dropLast.map oc).map Octet.data ++ [octets.getLast?.getD 0] = octets) ∧
    (retireOctets = 0xC3 :: 7 :: 0x03 :: 9 :: 1 :: ([0, 1] ++ crcOctets (7 :: 0x03 :: 9 :: 1 :: [0, 1])) ∧
      (7 : Byte).toNat = ([0, 1] : List Byte).length + 5 ∧ (Message.retire 1).kind = 0x03 ∧
      (Message.retire 1).octets = [0, 1] ∧ wellFormed ((Message.retire 1).command (asks 9)) = true) ∧
    (strangeOctets = 0xC3 :: 5 :: 0x7F :: 9 :: 1 :: ([] ++ crcOctets (5 :: 0x7F :: 9 :: 1 :: []))) ∧
    (0x7F : Byte) ∉ ([0x01, 0x02, 0x03, 0x04, 0x05, 0x06, 0x07, 0x08, 0x10, 0x11, 0x12, 0x13, 0x14, 0x15, 0x20, 0x21, 0x22,
      0x30, 0x31] : List Byte) ∧
    (∀ kind ∈ ([0x03, 0x20, 0x21] : List Byte), ∃ read, kindReader kind = some read ∧ read [0] = none) ∧
    (∃ read, kindReader 0x22 = some read ∧ read [0] = none) ∧
    ∀ st b, Listening (unpackingPart st b) := by
  refine ⟨by decide +kernel, by decide +kernel, by decide +kernel, by decide +kernel, ?_, ⟨_, rfl, by decide +kernel⟩,
    listening_unpacking⟩
  intro kind hk
  simp only [List.mem_cons, List.not_mem_nil, or_false] at hk
  rcases hk with rfl | rfl | rfl <;> exact ⟨_, rfl, by decide +kernel⟩

theorem witness_ParametersReadBack :
    wellFormed ((Message.post (posted 65535 255 (-32768) 255 65535)).command quiet) = true ∧
    (∀ kind ∈ ([0x01, 0x02, 0x10, 0x30] : List Byte), (kindReader kind).isSome = true) ∧
    8 ≤ (8 : Byte).toNat ∧ 64 ≤ (64 : Byte).toNat ∧ 2 ≤ (2 : Byte).toNat ∧ 16 ≤ (16 : Byte).toNat := by
  decide

/-! ### Witnesses: the Place Directory -/

/-- A state whose directory is in another operation state. -/
def withOp (s : State) (op : DirOp) : State := s.withDir { s.dir with op := op }

theorem listening_withDir {s : State} (d : Directory) (h : Listening s) : Listening (s.withDir d) := h

/-- Write fields that fail R76's first step, each by one step past a boundary, and fields at the boundaries. -/
def badWrites : List WriteFields :=
  [writeOf 1024 "Ashcombe", writeOf 5 "", { place := 5, entry := { entryOf "A" none with full := List.replicate 33 0x41 } },
    writeOf 5 "A" (some ""), writeOf 5 "A" (some "Fifteen letters"), { place := 5, entry := { entryOf "A" none with code := glyphs "AbC" } },
    { place := 5, entry := { entryOf "A" none with full := [0x7F] } }, { place := 5, entry := { entryOf "A" none with full := [0x1F] } }]

def goodWrites : List WriteFields :=
  [writeOf 0 "A", { place := 1023, entry := { full := List.replicate 32 0x7E, short := some (List.replicate 14 0x20), code := glyphs "AZZ" } },
    writeOf 5 "Ashcombe", writeOf 300 "Marlow", writeOf 700 "Marlow"]

theorem in_range_iff (f : WriteFields) : WriteOutOfRange f ↔ 1023 < f.place ∨ entryOK f.entry = false := by
  unfold WriteOutOfRange
  rw [← entryOK_iff]
  simp

theorem witness_WritePlaceRefused :
    (∀ s ∈ [namedPart, gatheringPart, erasingPart, suspendingPart, suspendedPart, writingSuspendedPart, writingPart,
      lockingPart, lockedPart, after namedPart [.restart]], Listening s) ∧
    (∀ f ∈ badWrites, WriteOutOfRange f) ∧ (∀ f ∈ goodWrites, ¬ WriteOutOfRange f) ∧
    (∀ s ∈ [erasingPart, suspendingPart, writingSuspendedPart, writingPart, lockingPart, after namedPart [.restart]],
      OpBusy s.dir.op) ∧
    (∃ e c, suspendedPart.dir.op = .suspended e c .commanded ∧ sectorOf 300 ∈ e.set) ∧
    (sectorOf 5 ∈ lockedPart.dir.locks ∧ lockedPart.dir.op = .ready) ∧
    (sectorOf 5 ∉ gatheringPart.dir.locks ∧ slotState gatheringPart.dir 5 = .valid ∧
      ∃ e w, gatheringPart.dir.op = .gathering e w ∧ e.joined = [asks 1, asks 2]) := by
  have h1 : erasingPart.dir.op = .erasing { set := [2, 3], joined := [asks 1, asks 2], erased := [] } (firstOf 2 true) := by
    decide +kernel
  have h2 : suspendingPart.dir.op = .suspending { set := [2, 3], joined := [asks 1, asks 2], erased := [] } (firstOf 2 true)
      .commanded [asks 3] := by decide +kernel
  have h3 : writingSuspendedPart.dir.op = .suspendedWriting { set := [2, 3], joined := [asks 1, asks 2], erased := [] }
      (firstOf 2 true) .commanded { place := 700, header := asks 4 } := by decide +kernel
  have h4 : writingPart.dir.op = .writing { place := 700, header := asks 4 } := by decide +kernel
  have h5 : lockingPart.dir.op = .locking { target := [0, 7], kind := kindLock, header := asks 5, remaining := 5 } := by
    decide +kernel
  have h6 : (after namedPart [.restart]).dir.op = .scanning := by decide +kernel
  have h7 : suspendedPart.dir.op = .suspended { set := [2, 3], joined := [asks 1, asks 2], erased := [] } (firstOf 2 true)
      .commanded := by decide +kernel
  have h8 : gatheringPart.dir.op = .gathering { set := [2, 3], joined := [asks 1, asks 2], erased := [] } 40 := by
    decide +kernel
  refine ⟨by unfold Listening; decide +kernel, ?_, ?_, ?_, ⟨_, _, h7, by decide⟩, by decide +kernel, by decide +kernel,
    by decide +kernel, _, _, h8, rfl⟩
  · simp only [in_range_iff]; decide
  · simp only [in_range_iff]; decide
  · intro s hs
    unfold OpBusy
    simp only [List.mem_cons, List.not_mem_nil, or_false] at hs
    rcases hs with rfl | rfl | rfl | rfl | rfl | rfl
    · rw [h1]; simp
    · rw [h2]; simp
    · rw [h3]; simp
    · rw [h4]; simp
    · rw [h5]; simp
    · rw [h6]; simp

theorem witness_WritePlaceStarts :
    (∀ s ∈ [namedPart, gatheringPart, suspendedPart], Listening s ∧ s.dir.wf = true ∧ sectorOf 700 ∉ s.dir.locks ∧
      slotState s.dir 700 = .blank) ∧ ¬ WriteOutOfRange (writeOf 700 "Marlow") ∧ namedPart.dir.op = .ready ∧
    (∃ e c, suspendedPart.dir.op = .suspended e c .commanded ∧ sectorOf 700 ∉ e.set) := by
  have h : suspendedPart.dir.op = .suspended { set := [2, 3], joined := [asks 1, asks 2], erased := [] } (firstOf 2 true)
      .commanded := by decide +kernel
  refine ⟨by unfold Listening; decide +kernel, ?_, by decide +kernel, _, _, h, by decide⟩
  rw [in_range_iff]; decide

/-- The erase in hand with its first sector current. -/
def demoErase : EraseJob := { set := [2, 3], joined := [asks 1, asks 2], erased := [] }

theorem op_withOp (s : State) (op : DirOp) : (withOp s op).dir.op = op ∧ ((withOp s op).dir.wf = s.dir.wf) := ⟨rfl, rfl⟩

theorem running_withOp {s : State} (op : DirOp) (h : Listening s) : Listening (withOp s op) ∧ Running (withOp s op) :=
  ⟨h, h.1⟩

/-- A part in an operation state whose paint suspend request stands. -/
def requestingPart (op : DirOp) : State :=
  (withOp writingPart op).withPaint { writingPart.paint with suspendRequest := true }

theorem witness_WriteCompletes :
    (∀ op, Running (withOp writingPart op) ∧ (withOp writingPart op).dir.wf = true ∧ (withOp writingPart op).dir.op = op) ∧
    writingPart.paint.suspendRequest = false ∧ (writingPart.settings.autoSuspend = true) ∧
    ∀ op, Running (requestingPart op) ∧ (requestingPart op).dir.wf = true ∧ (requestingPart op).dir.op = op ∧
      (requestingPart op).paint.suspendRequest = true ∧ (requestingPart op).settings.autoSuspend = true := by
  have h : writingPart.dir.wf = true := by decide +kernel
  have hl : Listening writingPart := by unfold Listening; decide +kernel
  have ha : writingPart.settings.autoSuspend = true := by decide +kernel
  refine ⟨fun op => ⟨(running_withOp op hl).2, (op_withOp _ op).2.trans h, (op_withOp _ op).1⟩, by decide +kernel, ha,
    fun op => ?_⟩
  have hp (s : State) (p : Paint) (hr : Running s) (hw : s.dir.wf = true) (ho : s.dir.op = op)
      (hx : s.settings.autoSuspend = true) : Running (s.withPaint p) ∧ (s.withPaint p).dir.wf = true ∧
      (s.withPaint p).dir.op = op ∧ (s.withPaint p).paint = p ∧ (s.withPaint p).settings.autoSuspend = true :=
    ⟨hr, hw, ho, rfl, hx⟩
  unfold requestingPart
  obtain ⟨h1, h2, h3, h4, h5⟩ := hp (withOp writingPart op) { writingPart.paint with suspendRequest := true }
    (running_withOp op hl).2 ((op_withOp _ op).2.trans h) (op_withOp _ op).1 ha
  exact ⟨h1, h2, h3, by rw [h4], h5⟩

/-- A gather that holds sixteen messages. -/
def gatheringFull : State :=
  withOp servedPart (.gathering { demoErase with joined := List.replicate 16 (asks 1) } 1)

theorem witness_EraseSectorJoins :
    (∀ s ∈ [servedPart, gatheringPart, lockedPart, suspendedPart, erasingPart, gatheringFull],
      Listening s ∧ s.dir.wf = true) ∧ (8 < 256 ∧ 7 < 8 ∧ 7 ∈ lockedPart.dir.locks) ∧
    (0 ∉ servedPart.dir.locks ∧ sectorOf 5 = 0 ∧ 0 < cellGet 0 servedPart.dir.counts 5 ∧
      ∀ q < 5, cellGet 0 servedPart.dir.counts q = 0) ∧
    (∃ e w, gatheringPart.dir.op = .gathering e w ∧ 2 ∈ e.set ∧ 7 ∉ e.set ∧ e.joined.length = 2 ∧
      2 ∉ gatheringPart.dir.locks ∧ gatheringPart.dir.counts = []) ∧
    (∃ e w, gatheringFull.dir.op = .gathering e w ∧ e.joined.length = 16) := by
  have h8 : gatheringPart.dir.op = .gathering demoErase 40 := by decide +kernel
  refine ⟨by unfold Listening; decide +kernel, by decide +kernel, by decide +kernel, ⟨_, _, h8, by decide, by decide, by decide,
    by decide +kernel, by decide +kernel⟩, _, _, (op_withOp _ _).1, by decide⟩

/-- The last sector of an erase. -/
def lastErase : EraseJob := { set := [3], joined := [asks 1, asks 2], erased := [2] }

theorem witness_EraseRunsSectorBySector :
    (Running gatheringPart ∧ gatheringPart.dir.op = .gathering demoErase 40 ∧ demoErase.set = 2 :: [3]) ∧
    ∀ op ∈ [DirOp.erasing demoErase (firstOf 2 true), .erasing lastErase (firstOf 3 true),
        .suspending demoErase (firstOf 2 true) .commanded [asks 3], .suspending lastErase (firstOf 3 true) .paint []],
      Running (withOp erasingPart op) ∧ (withOp erasingPart op).dir.wf = true ∧ (withOp erasingPart op).dir.op = op := by
  have h : erasingPart.dir.wf = true := by decide +kernel
  have hl : Listening erasingPart := by unfold Listening; decide +kernel
  exact ⟨⟨by unfold Running; decide +kernel, by decide +kernel, rfl⟩, fun op _ =>
    ⟨(running_withOp op hl).2, (op_withOp _ op).2.trans h, (op_withOp _ op).1⟩⟩

/-- Every row of R83's table, and of R75's for the other messages. -/
theorem witness_SuspendEraseByState : ∀ op ∈ [DirOp.ready, .scanning, .writing { place := 700, header := asks 4 },
      .locking { target := [], kind := kindLock, header := asks 5, remaining := 1 }, .gathering demoErase 1,
      .erasing demoErase (firstOf 2 true), .suspending demoErase (firstOf 2 true) .paint [],
      .suspended demoErase (firstOf 2 true) .paint,
      .suspendedWriting demoErase (firstOf 2 true) .paint { place := 700, header := asks 4 }],
    Listening (withOp namedPart op) ∧ (withOp namedPart op).dir.op = op :=
  fun op _ => ⟨(running_withOp op listening_named).1, (op_withOp _ op).1⟩

theorem witness_SuspensionEndsAndResumes :
    (∀ op, Running (withOp namedPart op) ∧ Listening (withOp namedPart op) ∧ (withOp namedPart op).dir.op = op) ∧
    namedPart.paint.suspendRequest = false ∧ namedPart.settings.autoSuspend = true :=
  ⟨fun op => ⟨(running_withOp op listening_named).2, (running_withOp op listening_named).1, (op_withOp _ op).1⟩,
    by decide +kernel, by decide +kernel⟩

/-- The locked part with the staff key closed. -/
def keyedPart : State := after lockedPart [.staffKeyInputChange true, .staffKeyDebounced]

theorem witness_LocksChange :
    (∀ s ∈ [namedPart, lockedPart, keyedPart, gatheringPart, erasingPart], Listening s) ∧
    (lockedPart.key.asserted = false ∧ keyedPart.key.asserted = true ∧ keyedPart.dir.op = .ready) ∧
    (Running lockingPart ∧ lockingPart.dir.op =
      .locking { target := [0, 7], kind := kindLock, header := asks 5, remaining := 5 }) := by
  unfold Listening Running; decide +kernel

/-- A part that scans storage with entries in it: RESTART in the middle of a write, place 700. -/
def rescanningPart : State := after writingPart [.restart]

theorem witness_ScanSetsSlots :
    (∀ s ∈ [scanningPart, rescanningPart], Running s ∧ s.dir.wf = true ∧ (∀ a ∈ s.dir.eraseMarks, a < 8) ∧
      s.dir.op = .scanning) ∧ scanningPart.feed.held = true ∧ rescanningPart.feed.held = false ∧
    (cellGet StoredSlot.erased rescanningPart.dir.storage 5).complete = true ∧
    (cellGet StoredSlot.erased rescanningPart.dir.storage 700).begun = true ∧
    (cellGet StoredSlot.erased rescanningPart.dir.storage 700).complete = false := by
  unfold Running; decide +kernel

/-! ### Witnesses: the Paint Engine -/

/-- The banner-less part with a job in hand; and the same with a banner that owns the bottom line. -/
def withJob (s : State) (j : Option Job) : State := s.withPaint { s.paint with job := j }
def someImage : Composed := { image := [0], layout := .empty, strip := some [0, 0] }

theorem with_job {s : State} (j : Option Job) (h : Running s) : Running (withJob s j) ∧ (withJob s j).paint.job = j ∧
    (∀ n, ownerOf (withJob s j) n = ownerOf s n) ∧ (withJob s j).lines = s.lines ∧
    (withJob s j).paint.callingScroll = s.paint.callingScroll ∧ (withJob s j).paint.bannerScroll = s.paint.bannerScroll :=
  ⟨h, rfl, fun _ => rfl, rfl, rfl, rfl⟩

theorem running_named : Running namedPart := by unfold Running; decide +kernel
theorem running_bannered : Running banneredPart := by unfold Running; decide +kernel

theorem witness_HoldTakenReleasedLapsed :
    (∀ s ∈ [namedPart, servedPart, after servedPart [.holdLapse]], Listening s ∧ Running s) ∧
    namedPart.paint.hold = .free ∧ servedPart.paint.hold = .held 5000 ∧
    (after servedPart [.holdLapse]).paint.hold = .lapsed := by
  unfold Listening Running; decide +kernel

theorem witness_BannerSet :
    (∀ s ∈ [namedPart, banneredPart, readyPart, after namedPart [stationRecord 2 0x58 1 2, stationRecord 2 0x58 2 2]],
      Listening s) ∧ readyPart.board = .starting ∧ namedPart.board = .showing ∧
    (after namedPart [stationRecord 2 0x58 1 2, stationRecord 2 0x58 2 2]).board = .alert ∧
    (GlyphText 160 (List.replicate 160 0x7E) ∧ GlyphText 160 [0x20] ∧ ¬ GlyphText 160 (List.replicate 161 0x7E) ∧
      ¬ GlyphText 160 [] ∧ ¬ GlyphText 160 [0x7F]) := by
  refine ⟨by unfold Listening; decide +kernel, by decide +kernel, by decide +kernel, by decide +kernel, ?_⟩
  unfold GlyphText; decide +kernel

theorem witness_BannerRemoved :
    (Listening banneredPart ∧ Running banneredPart ∧
      banneredPart.paint.banner = some { text := glyphs "Hello", width := textWidth .large (glyphs "Hello"), remaining := some 60000 }) ∧
    (Listening namedPart ∧ Running namedPart ∧ namedPart.paint.banner = none) := by
  unfold Listening Running; decide +kernel

/-- The bannered part in ALERT: line 1 has passed to the banner. -/
def alertPart : State := after banneredPart [stationRecord 2 0x58 1 2, stationRecord 2 0x58 2 2]

theorem witness_TableJobPlaces :
    (∀ j, Running (withJob namedPart j) ∧ (withJob namedPart j).paint.job = j) ∧
    (ownerOf (withJob namedPart (some (.table 1 (some someImage)))) 1 = .table) ∧
    (ownerOf (withJob namedPart (some (.table 4 (some someImage)))) 4 = .table) ∧
    ownerOf namedPart 0 = .table ∧
    (Running (withJob alertPart (some (.table 1 (some someImage)))) ∧
      ownerOf (withJob alertPart (some (.table 1 (some someImage)))) 1 ≠ .table) := by
  refine ⟨fun j => ⟨(with_job j running_named).1, (with_job j running_named).2.1⟩, ?_, ?_, by decide +kernel,
    (with_job _ (by unfold Running; decide +kernel)).1, ?_⟩
  · exact ((with_job _ running_named).2.2.1 1).trans (by decide +kernel)
  · exact ((with_job _ running_named).2.2.1 4).trans (by decide +kernel)
  · decide +kernel

theorem witness_ClockAndBannerPlaced :
    (∀ j, Running (withJob namedPart j) ∧ (withJob namedPart j).paint.job = j) ∧
    (ownerOf namedPart (namedPart.lines - 1) = .clock ∧
      ∀ j, ownerOf (withJob namedPart j) ((withJob namedPart j).lines - 1) = ownerOf namedPart (namedPart.lines - 1)) ∧
    (∀ j, Running (withJob banneredPart j) ∧ (withJob banneredPart j).paint.job = j) ∧
    (ownerOf banneredPart 5 = .banner ∧ ∀ j n, ownerOf (withJob banneredPart j) n = ownerOf banneredPart n) := by
  refine ⟨fun j => ⟨(with_job j running_named).1, (with_job j running_named).2.1⟩, ⟨by decide +kernel, fun j => ?_⟩,
    fun j => ⟨(with_job j running_bannered).1, (with_job j running_bannered).2.1⟩, by decide +kernel,
    fun j => (with_job j running_bannered).2.2.1⟩
  rw [(with_job j running_named).2.2.1, (with_job j running_named).2.2.2.1]

/-- Parts whose scrolls move: a strip of 300 columns at an offset. -/
def movingPart (offset wait : Int) : State :=
  let sc := Scroll.moving (List.replicate 300 0) offset wait
  banneredPart.withPaint { banneredPart.paint with callingScroll := sc, bannerScroll := sc }

theorem moving (offset wait : Int) : Running (movingPart offset wait) ∧
    (movingPart offset wait).paint.callingScroll = .moving (List.replicate 300 0) offset wait ∧
    (movingPart offset wait).paint.bannerScroll = .moving (List.replicate 300 0) offset wait := by
  have h (s : State) (p : Paint) (hr : Running s) : Running (s.withPaint p) ∧
      (s.withPaint p).paint.callingScroll = p.callingScroll ∧ (s.withPaint p).paint.bannerScroll = p.bannerScroll :=
    ⟨hr, rfl, rfl⟩
  unfold movingPart
  exact h _ _ running_bannered

theorem witness_ScrollStepsLand :
    (∀ o w j, Running (withJob (movingPart o w) j) ∧ (withJob (movingPart o w) j).paint.job = j ∧
      (withJob (movingPart o w) j).paint.callingScroll = .moving (List.replicate 300 0) o w ∧
      (withJob (movingPart o w) j).paint.bannerScroll = .moving (List.replicate 300 0) o w) ∧
    (∀ j, Running (withJob namedPart j) ∧ (withJob namedPart j).paint.callingScroll = namedPart.paint.callingScroll) ∧
    namedPart.paint.callingScroll = .still ∧ ownerOf banneredPart 1 = .table ∧ ownerOf banneredPart 5 = .banner := by
  refine ⟨fun o w j => ?_, fun j => ⟨(with_job j running_named).1, (with_job j running_named).2.2.2.2.1⟩, by decide +kernel,
    by decide +kernel, by decide +kernel⟩
  obtain ⟨h1, h2, -, -, h3, h4⟩ := with_job j (moving o w).1
  exact ⟨h1, h2, h3.trans (moving o w).2.1, h4.trans (moving o w).2.2⟩

/-- A part whose scrolls pause. -/
def pausedPart (wait : Nat) : State :=
  banneredPart.withPaint { banneredPart.paint with callingScroll := .paused [0] wait, bannerScroll := .paused [0] wait }

theorem witness_ScrollTimersRun :
    (∀ o w, Running (movingPart o w) ∧ (movingPart o w).paint.callingScroll = .moving (List.replicate 300 0) o w) ∧
    (Running namedPart ∧ namedPart.paint.callingScroll = .still) ∧
    ∀ w, Running (pausedPart w) ∧ (pausedPart w).paint.callingScroll = .paused [0] w ∧
      (pausedPart w).paint.bannerScroll = .paused [0] w := by
  refine ⟨fun o w => ⟨(moving o w).1, (moving o w).2.1⟩, ⟨running_named, by decide +kernel⟩, fun w => ?_⟩
  have h (s : State) (p : Paint) (hr : Running s) : Running (s.withPaint p) ∧
      (s.withPaint p).paint.callingScroll = p.callingScroll ∧ (s.withPaint p).paint.bannerScroll = p.bannerScroll :=
    ⟨hr, rfl, rfl⟩
  unfold pausedPart
  exact h _ _ running_bannered

/-- An idle arbiter with every slot grantable, and with none. -/
def waitingPart : State :=
  (movingPart 299 0).withPaint { (movingPart 299 0).paint with
    job := none, dirty := [0, 4], callingStep := true, clockRequest := true, bannerCompose := true }

/-- The same while HELD. -/
def heldPart : State := waitingPart.withPaint { waitingPart.paint with hold := .held 1000 }

theorem witness_RoundRobinGrant :
    (waitingPart.paint.job = none ∧ ∀ x ∈ [Slot.table, .scroll, .clock, .banner], grantable (judgeRequest waitingPart) x = true) ∧
    (idlePart.paint.job = none ∧ ∀ x ∈ [Slot.table, .scroll, .clock, .banner], grantable (judgeRequest idlePart) x = false) ∧
    roundAfter .table = [.scroll, .clock] ++ .banner :: [.table] ∧ ((heldPart).paint.job = none ∧ HoldHeld heldPart) := by
  exact ⟨⟨rfl, by decide +kernel⟩, by decide +kernel, rfl, rfl, 1000, rfl⟩

/-- The served part with a service of two stops at position 0. -/
def stoppingPart : State := after servedPart [.postService quiet (posted 4 1 590 0 5 none [5, 600])]

theorem witness_TextsFitTheirFields : SettingsOK State.reset.settings ∧ 5 ≤ 5 ∧
    (SettingsOK stoppingPart.settings ∧ stoppingPart.board = .showing ∧
      RecordAtPosition stoppingPart 0 (recordOf stoppingPart 4) ∧ RecordAtPosition stoppingPart 1 (recordOf stoppingPart 1)) ∧
    ((recordOf stoppingPart 4).stops.map Stop.place = [5, 600] ∧ (recordOf stoppingPart 4).train = none ∧
      Holds stoppingPart.dir 5 (entryOf "Ashcombe" none) ∧ EntryInRange (entryOf "Ashcombe" none) ∧
      Holds stoppingPart.dir 600 (entryOf "Alder" none) ∧ EntryInRange (entryOf "Alder" none)) ∧
    ((recordOf stoppingPart 1).destination = 5 ∧ (recordOf stoppingPart 1).via = none ∧
      PlatformCode (recordOf stoppingPart 1).platform) ∧
    (namedPart.board = .showing ∧ namedPart.table.order = [] ∧ namedPart.time.valid = true ∧ namedPart.time.minute < 1440) ∧
    (after namedPart [.feedLapsed]).board = .unavailable ∧ alertPart.board = .alert ∧ readyPart.time.valid = false := by
  refine ⟨by unfold SettingsOK; decide +kernel, by decide, ⟨by unfold SettingsOK; decide +kernel, by decide +kernel,
    ⟨4, by decide +kernel, by decide +kernel⟩, 1, by decide +kernel, by decide +kernel⟩, ⟨by decide +kernel, by decide +kernel,
    ?_, ?_, ?_, ?_⟩, ⟨by decide +kernel, by decide +kernel, by unfold PlatformCode; decide +kernel⟩, by decide +kernel,
    by decide +kernel, by decide +kernel, by decide +kernel⟩
  · unfold Holds; decide +kernel
  · rw [← entryOK_iff]; decide
  · unfold Holds; decide +kernel
  · rw [← entryOK_iff]; decide

/-! ### Witnesses: panels, return line, settings and resets -/

theorem witness_RefreshAndShift :
    (Running namedPart ∧ namedPart.frame.shown.length = boardLines namedPart.geometry ∧
      namedPart.frame.pending.length = boardLines namedPart.geometry ∧ namedPart.frame.shift = none) ∧
    (Running (after namedPart [.refresh]) ∧ (after namedPart [.refresh]).frame.shift.isSome = true) := by
  unfold Running; decide +kernel

/-- A part whose return line stands at an octet of a frame. -/
def returningPart (octet frame : Nat) (record : List Byte) : State :=
  queuedPart.withResults { queuedPart.results with octet := octet, frame := frame, record := record, overhead := [1, 2, 3, 4, 5] }

theorem witness_ReturnOctetSent :
    (∀ o f r, Running (returningPart o f r) ∧ (returningPart o f r).results.octet = o ∧
      (returningPart o f r).results.frame = f ∧ (returningPart o f r).results.record = r) ∧
    queuedPart.results.queue = [.read 1 (.service 1), .read 2 .board, .result 0x03 3 3 0] ∧
    (findRecord 1 queuedPart.table.slots = some (recordOf queuedPart 1) ∧ findRecord 9 queuedPart.table.slots = none ∧
      queuedPart.dir.wf = true) ∧
    (NamesPresent queuedPart 5 ∧ Holds queuedPart.dir 5 (entryOf "Ashcombe" none) ∧ slotState queuedPart.dir 700 ≠ .valid) ∧
    (slotState erasingPart.dir 5 = .valid ∧ ¬ NamesPresent erasingPart 5) := by
  have h (s : State) (v : ResultSender) (hr : Running s) : Running (s.withResults v) ∧
      (s.withResults v).results.octet = v.octet ∧ (s.withResults v).results.frame = v.frame ∧
      (s.withResults v).results.record = v.record := ⟨hr, rfl, rfl, rfl⟩
  refine ⟨fun o f r => ?_, by decide +kernel, by decide +kernel, ?_, ?_⟩
  · unfold returningPart
    exact h _ _ (by unfold Running; decide +kernel)
  · unfold NamesPresent Holds; decide +kernel
  · unfold NamesPresent; decide +kernel

/-- The served part under a holdover limit of 60 minutes, its feed silent for 10. -/
def stalePart : State :=
  (servedPart.withSettings { servedPart.settings with holdover := 60 }).withTime { servedPart.time with freshTimer := 600000 }

/-- An erase that runs with auto-suspend off while the paint suspend request stands. -/
def unsuspendingPart : State :=
  ((withOp servedPart (.erasing demoErase (firstOf 2 true))).withPaint { servedPart.paint with suspendRequest := true }).withSettings
    { servedPart.settings with autoSuspend := false }

theorem witness_SetBoardTaken :
    (Listening servedPart ∧ SettingsOK servedPart.settings ∧
      BoardIs servedPart.feed.station servedPart.time.freshness servedPart.time.valid servedPart.board) ∧
    TableInv servedPart ∧
    (servedPart.records ≠ [] ∧ SettingsTaken { origin := some 360 } servedPart.settings { servedPart.settings with origin := 359 }) ∧
    BoardClamped { origin := some 360, scrollRate := some 9 } ∧ ¬ BoardClamped { origin := some 359, scrollRate := some 10 } ∧
    (Listening stalePart ∧ TableInv stalePart ∧ SettingsOK stalePart.settings ∧
      BoardIs stalePart.feed.station stalePart.time.freshness stalePart.time.valid stalePart.board ∧
      SettingsTaken { holdover := some 1 } stalePart.settings { stalePart.settings with holdover := 1 } ∧
      stalePart.settings.holdover ≠ 1 ∧ stalePart.time.freshness = .fresh ∧ 60000 * 1 ≤ stalePart.time.freshTimer) ∧
    (∀ op, Listening (withOp servedPart op) ∧ (withOp servedPart op).dir.op = op ∧
      (withOp servedPart op).settings.autoSuspend = true) ∧
    SettingsTaken { autoSuspend := some false } servedPart.settings { servedPart.settings with autoSuspend := false } ∧
    (Listening unsuspendingPart ∧ unsuspendingPart.settings.autoSuspend = false ∧
      unsuspendingPart.paint.suspendRequest = true ∧ unsuspendingPart.dir.op = .erasing demoErase (firstOf 2 true)) ∧
    (∀ l ∈ [List.replicate 5 (glyphs "1"), [[]], [glyphs "ABCD"], [glyphs "1", glyphs "a"]],
      4 < l.length ∨ ∃ c ∈ l, ¬ PlatformCode c) := by
  have auto : servedPart.settings.autoSuspend = true := by decide +kernel
  refine ⟨⟨listening_served, settings_served, by unfold BoardIs; decide +kernel⟩, table_inv_served, ⟨?_, ?_⟩, ?_, ?_,
    ⟨?_, ?_, ?_, ?_, ?_, by decide +kernel, by decide +kernel, by decide +kernel⟩, ?_, ?_, ⟨?_, by decide +kernel,
    by decide +kernel, by decide +kernel⟩, ?_⟩
  · unfold State.records; decide +kernel
  · unfold SettingsTaken Clamped; simp
  · exact .inl ⟨360, rfl, by decide⟩
  · unfold BoardClamped GivenOutside; simp
  · unfold Listening; decide +kernel
  · unfold TableInv RecordOK DelayFits State.references State.records; decide +kernel
  · unfold SettingsOK; decide +kernel
  · unfold BoardIs; decide +kernel
  · unfold SettingsTaken Clamped; simp
  · exact fun op => ⟨(running_withOp op listening_served).1, (op_withOp _ op).1, auto⟩
  · unfold SettingsTaken Clamped; simp
  · unfold Listening; decide +kernel
  · unfold PlatformCode; decide +kernel

theorem witness_RestartResetsButKeepsTime :
    (Listening servedPart ∧ servedPart.time.minute < 1440 ∧ servedPart.dir.wf = true) ∧
    (Listening writingPart ∧ writingPart.time.minute < 1440 ∧ writingPart.dir.wf = true) ∧
    (Listening stalePart ∧ stalePart.time.minute < 1440 ∧ stalePart.time.freshness = .fresh ∧
      600000 ≤ stalePart.time.freshTimer) := by
  unfold Listening; decide +kernel

theorem witness_StaffKeyDebounced :
    (Running namedPart ∧ namedPart.key.asserted = false ∧ namedPart.key.timer = none) ∧
    (Running (after namedPart [.staffKeyInputChange true]) ∧ (after namedPart [.staffKeyInputChange true]).key.timer = some 0) := by
  unfold Running; decide +kernel

theorem witness_ResetsHoldAndRelease :
    namedPart.phase = .running ∧ (after lockingPart [.powerOn]).phase = .inReset ∧
    (after lockingPart [.powerOn]).dir.op = .scanning ∧ (after lockingPart [.powerOn]).table = Table.reset ∧
    (after lockingPart [.powerOn]).time = Timekeeper.reset ∧ (after lockingPart [.powerOn]).feed = FeedReceiver.reset := by
  decide +kernel

/-! ### Ill-formed commands -/

/-- One ill-formed command for each check of `wellFormed`, each one step past what carries the operand. -/
def illFormed : List Instr :=
  let text := List.replicate 256 (0x41 : Byte)
  let post := posted 1 1 600 0 5
  let write := writeOf 5 "Alder"
  [.postService quiet { post with key := 65536 }, .postService quiet { post with scheduled := 32768 },
    .postService quiet { post with scheduled := -32769 }, .postService quiet { post with state := 256 },
    .postService quiet { post with platform := text }, .postService quiet { post with destination := 65536 },
    .postService quiet { post with delay := some 32768 }, .postService quiet { post with via := some 65536 },
    .postService quiet { post with stops := List.replicate 256 { place := 5, request := false, skipped := false } },
    .postService quiet (posted 1 1 600 0 5 none [65536]), .postService quiet { post with train := some 256 },
    .amendService quiet { amended 1 1 with key := 65536 }, .amendService quiet { amended 1 1 with delay := some (-32769) },
    .amendService quiet { amended 1 1 with state := some 256 }, .amendService quiet { amended 1 1 with platform := some text },
    .amendService quiet { amended 1 1 with train := some 256 },
    .amendService quiet { amended 1 1 with skip := some (List.replicate 256 0) },
    .amendService quiet { amended 1 1 with skip := some [256] }, .amendService quiet { amended 1 1 with restore := some [256] },
    .retireService quiet 65536, .readService quiet 65536, .readPlace quiet 65536, .eraseSector quiet 256,
    .writePlace quiet { write with place := 65536 }, .writePlace quiet { write with entry := { write.entry with full := text } },
    .writePlace quiet { write with entry := { write.entry with short := some text } },
    .writePlace quiet { write with entry := { write.entry with code := glyphs "AB" } },
    .setBanner quiet { text := text, duration := 0 }, .setBanner quiet { text := [], duration := 65536 },
    .setBoard quiet { filter := some (List.replicate 256 []) }, .setBoard quiet { filter := some [text] },
    .setBoard quiet { origin := some 65536 }, .setBoard quiet { horizon := some 65536 },
    .setBoard quiet { sweepLength := some 256 }, .setBoard quiet { holdover := some 256 },
    .setBoard quiet { holdLimit := some 256 }, .setBoard quiet { countdown := some 256 },
    .setBoard quiet { lateThreshold := some 256 }, .setBoard quiet { grace := some 256 }, .setBoard quiet { dwell := some 256 },
    .setBoard quiet { scrollRate := some 256 }, .setBoard quiet { scrollPause := some 256 },
    .setBoard quiet { alignWindow := some 256 }]

theorem test_ill_formed_refused : ∀ i ∈ illFormed, wellFormed i = false := by decide +kernel

/-- No table word spells a command, and a fetch word leaves the state as it is. -/
theorem test_no_word_spells : decodeTableWord 8 3 = none ∧ (readyPart.withFetchWord 8 3).pending = [] := by decide +kernel

/-! ### Widths and texts, from chapter 5's worked tables -/

def kingsbridge (short : Option String) : PlaceEntry := entryOf "Kingsbridge Parkway" short
def alder : PlaceEntry := entryOf "Alder" none

/-- The widths of 5.3 and 5.4.1. -/
theorem test_widths : [("18:45", 30), ("--:--", 26), ("..", 5), (" via ", 27), ("Calling at: ", 65), (", ", 7), (" and ", 30),
      (" and more.", 62), (" (r)", 18), ("Kingsbridge Parkway", 124), ("Kingsbridge Parkway via Alder", 183),
      ("Kingsbridge Pk via Alder", 147), ("Westhaven Quay", 96), ("This train is cancelled.", 140), ("No departures", 85)].all
      (fun p => decide (textWidth .large (glyphs p.1) = p.2)) = true ∧
    textWidth .small (glyphs "Kingsbridge Parkway") = 88 ∧ textWidth .small (glyphs "Kingsbridge Pk") = 63 := by decide +kernel

/-- The six fields and the three variants of 5.4.1. -/
theorem test_fallback_chain :
    ([222, 158, 94, 68].map (fun d => destinationText d true (kingsbridge (some "Kingsbridge Pk")) (some alder)) =
      [{ step := 1, via := true, font := .large, text := glyphs "Kingsbridge Parkway via Alder" },
        { step := 1, via := false, font := .large, text := glyphs "Kingsbridge Parkway" },
        { step := 2, via := false, font := .large, text := glyphs "Kingsbridge Pk" },
        { step := 4, via := false, font := .small, text := glyphs "Kingsbridge Pk" }]) ∧
    destinationText 68 false (kingsbridge (some "Kingsbridge Pk")) none =
      { step := 5, via := false, font := .large, text := glyphs "Kingsbridg.." } ∧
    destinationText 68 true (kingsbridge none) none =
      { step := 5, via := false, font := .small, text := glyphs "Kingsbridge Pa.." } ∧
    destinationText 94 true (kingsbridge none) none =
      { step := 3, via := false, font := .small, text := glyphs "Kingsbridge Parkway" } := by decide +kernel

/-- A record whose fields are its POST SERVICE's. -/
def made (state : Nat) (delay : Option Int) (life : Lifecycle) : Record :=
  { postRecord (posted 101 1 945 state 5 delay) with life := life }

/-- "Now" 930, as in 2.7.2; and with a countdown threshold of 15, as in 2.7.1. -/
def nowPart (now countdown : Nat) : State :=
  let s := clockedPart.withTime { clockedPart.time with now := now }
  s.withSettings { s.settings with countdown := countdown }

/-- The rows of 2.7.2. -/
theorem test_status_cases :
    ([made 1 (some 1) .live, made 1 (some (-4)) .live, made 1 (some 240) .live, made 1 (some 241) .live, made 2 none .live,
        made 3 (some 7) .live, made 1 (some 7) (.leaving .retired), made 3 none (.leaving .timedOut)].map
      (statusText (nowPart 930 0)) =
    [(6, glyphs "On time"), (6, glyphs "On time"), (5, glyphs "Exp 22:45"), (3, glyphs "Delayed"), (3, glyphs "Delayed"),
      (2, glyphs "Cancelled"), (1, glyphs "Departed"), (1, glyphs "Cancelled")]) := by decide +kernel

/-- The rows of 2.7.1. -/
theorem test_status_through_the_evening :
    [920, 930].map (fun n => (statusText (nowPart n 15) (made 0 none .live)).2) = [glyphs "On time", glyphs "15 min"] ∧
    [930, 937, 940, 952, 954].map (fun n => (statusText (nowPart n 15) (made 1 (some 7) .live)).2) =
      [glyphs "Exp 18:52", glyphs "15 min", glyphs "12 min", glyphs "Due", glyphs "Due"] := by decide +kernel

/-- A directory that holds the places of 5.5.1: 1 to 5, all named. -/
def callingPlaces : Directory :=
  { Directory.reset with storage := [(1, "Ashcombe"), (2, "Brenton Cross"), (3, "Alder"), (4, "Marlow Green"),
      (5, "Kingsbridge Parkway")].map (fun p => (p.1, { entry := some (entryOf p.2 none), begun := true, complete := true })) }

def calls (stops : List (Nat × Bool)) (train : Option Nat) : Record :=
  { made 0 none .live with
    stops := stops.map (fun p => { place := p.1, request := p.2, skipped := false }), train := train }

/-- The rows of 5.5.1. -/
theorem test_calling_texts :
    [calls [(1, false)] none, calls [(1, false), (3, false)] none, calls [(1, false), (3, false)] (some 4), calls [] (some 8),
        calls [(1, false), (2, false), (3, false), (4, true), (5, false)] (some 8)].map
      (fun r => textWidth .large (callingText callingPlaces r).text) = [156, 188, 348, 154, 683] ∧
    (callingText callingPlaces (calls [(1, false), (2, false), (3, false), (4, true), (5, false)] (some 8))).text =
      glyphs "Calling at: Ashcombe, Brenton Cross, Alder, Marlow Green (r) and Kingsbridge Parkway. This train has 8 coaches." := by
  decide +kernel

/-- 5.5.2: 24 stops of one place whose full name measures 170, with and without a short name that measures 80. -/
def longPlaces (short : Bool) : Directory :=
  let name := List.replicate 24 (0x30 : Byte) ++ [0x2E]
  let small := List.replicate 10 (0x30 : Byte) ++ [0x2D, 0x20]
  { Directory.reset with storage :=
      [(1, { entry := some { full := name, short := if short then some small else none, code := glyphs "ABC" }, begun := true,
             complete := true })] }

def longRecord : Record := calls (List.replicate 24 (1, false)) (some 8)

theorem test_strip_cap :
    textWidth .large (List.replicate 24 (0x30 : Byte) ++ [0x2E]) = 170 ∧
    (textWidth .large (callingText (longPlaces true) longRecord).text, (callingText (longPlaces true) longRecord).reduction) =
      (2379, .shortNames) ∧
    (textWidth .large (callingText (longPlaces false) longRecord).text, (callingText (longPlaces false) longRecord).reduction,
      (callingText (longPlaces false) longRecord).stops) = (4058, .cut, 22) := by decide +kernel

/-! ### The Service Table -/

/-- The board of 1.14 after its step 3, with every line clean and composes withheld. -/
def buildPart : State :=
  let s := after namedPart [.holdBoard quiet, .postService (asks 1) (posted 101 1 945 0 5),
    .postService (asks 2) (posted 102 1 948 0 5), .postService (asks 3) (posted 103 1 950 0 5 none [] "4")]
  s.withPaint { s.paint with dirty := [] }

theorem test_post_gives_positions : answers buildPart = [(1, 0, 0), (2, 0, 1), (3, 0, 2)] ∧ buildPart.table.order = [101, 102, 103] := by
  decide +kernel

def last (s : State) : Option (Byte × Nat × Nat) := (answers s).getLast?

def delayed (key : Nat) (revision : Byte) (delay : Int) : Instr :=
  .amendService (asks 9) { amended key revision with delay := some delay }

/-- Steps 4, 5, 6 and 7 of 1.14. -/
theorem test_amend_moves : last (after buildPart [delayed 101 2 6]) = some (9, 0, 2) ∧
    (after buildPart [delayed 101 2 6]).table.order = [102, 103, 101] ∧
    (after buildPart [delayed 101 2 6]).paint.dirty = [0, 1, 2, 3, 4] := by decide +kernel

theorem test_amend_duplicate_and_stale : last (after buildPart [delayed 102 1 3]) = some (9, 0, 1) ∧
    last (after buildPart [delayed 102 0 3]) = some (9, 4, 1) ∧ (after buildPart [delayed 102 0 3]).paint.dirty = [] := by
  decide +kernel

/-- Steps 8 and 9 of 1.14, on the board before step 4. -/
theorem test_retire_marks_its_lines : last (after buildPart [.retireService (asks 9) 101]) = some (9, 0, 1) ∧
    (after buildPart [.retireService (asks 9) 101]).paint.dirty = [0, 1] ∧
    last (after buildPart [.retireService quiet 101, delayed 101 2 3]) = some (9, 5, 1) := by decide +kernel

/-- The sweep that follows: 101 leaves position 0, so every departure line is marked. -/
theorem test_sweep_removes : (after buildPart [.retireService quiet 101, .sweepWindowExpiry]).table.order = [102, 103] ∧
    (after buildPart [.retireService quiet 101, .sweepWindowExpiry]).paint.dirty = [0, 1, 2, 3, 4] ∧
    cellGet 0 (after buildPart [.retireService quiet 101, .sweepWindowExpiry]).dir.counts 5 = 2 := by decide +kernel

/-- 1.15 steps 2 and 3: an early sweep makes room, and a full table under a CLOSED window refuses. -/
theorem test_full_table :
    last (after (fullPart .closed .live) [.postService (asks 9) (posted 700 1 600 0 5)]) = some (9, 2, 96) ∧
    (after (fullPart (.opened 3000 15000) (.leaving .retired)) [.postService (asks 9) (posted 700 1 900 0 5)]).table.window = .closed ∧
    last (after (fullPart (.opened 3000 15000) (.leaving .retired)) [.postService (asks 9) (posted 700 1 900 0 5)]) =
      some (9, 0, 95) := by decide +kernel

/-- 3.9 at 7.0, 12.0 and 14.0 s: the expiry restarts 3 s ahead and no later than the cap. -/
theorem test_window_cap :
    [7000, 12000, 14000].map (fun now =>
      (after ((buildPart.withTable { buildPart.table with window := .opened 7500 15000 }).withElapsed now)
        [.retireService quiet 101]).table.window) = [.opened 10000 15000, .opened 15000 15000, .opened 15000 15000] := by
  decide +kernel

theorem test_clear_counts_removed : last (after buildPart [.clearBoard (asks 9)]) = some (9, 0, 3) ∧
    (after buildPart [.clearBoard (asks 9)]).paint.dirty = [0, 1, 2, 3, 4] := by decide +kernel

theorem test_read_service_queues :
    (after buildPart [.readService quiet 101]).results.queue.getLast? = some (.read 0 (.service 101)) ∧
    last (after buildPart [.readService quiet 0]) = some (0, 6, 0) := by decide +kernel

/-- 9.7: a read merges under the new tag; an entry past sixteen is lost. -/
def crowdedPart : State :=
  buildPart.withResults { buildPart.results with
    queue := List.replicate 14 (.result 1 1 0 0) ++ [.read 21 (.service 101), .result 1 30 0 0] }

theorem test_crowded_queue :
    (after crowdedPart [.readService (asks 22) 101]).results.queue[14]? = some (.read 22 (.service 101)) ∧
    (after crowdedPart [.readPlace (asks 23) 412]).results.lost = true ∧
    (after crowdedPart [.readPlace (asks 23) 412]).results.queue = crowdedPart.results.queue := by decide +kernel

/-! ### Service time -/

/-- Record 201 of 2.9.2: scheduled 1430, delay 25, at 02:59:30; its board has taken the origin's passage or not. -/
def lateNight (minute second inconsistent : Nat) (roll : Bool) : State :=
  let s := after namedPart [.holdBoard quiet, .postService quiet (posted 201 1 1430 1 5 (some 25))]
  s.withTime { s.time with
    minute := minute, second := second, inconsistent := inconsistent, rollHold := roll
    now := if roll then 0 else serviceMinute 180 minute }

/-- 2.9.2: the passage of 03:00 rebases 1430 to −10; after a step back it does not rebase again. -/
theorem test_rollover :
    ((after (lateNight 179 30 0 false) [.minuteEvent]).time.now, (recordOf (after (lateNight 179 30 0 false) [.minuteEvent]) 201).scheduled) =
      (0, -10) ∧
    ((after (lateNight 179 59 0 true) [.minuteEvent]).time.rollHold,
      (recordOf (after (lateNight 179 59 0 true) [.minuteEvent]) 201).scheduled) = (false, 1430) := by decide +kernel

/-- 2.9.2: the third inconsistent record, 02:59:50 at 03:00:10, steps back and sets the rollover hold. -/
theorem test_step_back :
    let t := after (lateNight 180 10 2 false) [stationRecord 0 179 50 0]
    (t.time.minute, t.time.second, t.time.now, t.time.rollHold) = (179, 50, 0, true) := by decide +kernel

/-- 2.9.1: the first valid record, 18:29:57, is taken at once. -/
theorem test_first_take :
    let t := after readyPart [stationRecord 4 85 57 0]
    (t.time.minute, t.time.second, t.time.valid, t.time.now, t.board) = (1109, 57, true, 929, .showing) := by decide +kernel

/-- 2.7.1 at 18:54 and 18:55: 952 + 2 is below 955 first. -/
def agePart (minute : Nat) : State :=
  let s := after namedPart [.holdBoard quiet, .postService quiet (posted 101 1 945 1 5 (some 7))]
  s.withTime { s.time with minute := minute }

theorem test_ageing : (recordOf (after (agePart 1133) [.minuteEvent]) 101).life = .live ∧
    (recordOf (after (agePart 1134) [.minuteEvent]) 101).life = .leaving .timedOut := by decide +kernel

/-- 7.7: the feed lapses and the board becomes UNAVAILABLE. -/
theorem test_feed_lapses : (after namedPart [.feedLapsed]).board = .unavailable ∧
    (after namedPart [.feedLapsed]).time.freshTimer = 600000 := by decide +kernel

/-! ### The feed line -/

/-- 8.8: span 2 has its only qualifying position at 13, so the candidate is the thirteenth octet after it and carries the
pattern of octet 77. -/
theorem test_span_yields :
    (after (alignedPart (.hunting (List.ofFn (fun i : Fin 63 => oc (if i.val = 13 then 0xE4 else if i.val = 45 then 0x1B else 0))))
      none none []) [.feedOctet (oc 0)]).feed.alignment = .confirming 13 0xE4 := by decide +kernel

theorem test_confirmed : (after (alignedPart (.confirming 0 0xE4) none none []) [.feedOctet (oc 0xE4)]).feed.alignment =
    .aligned 1 false [] := by decide +kernel

/-- A missing octet where the pattern is due marks the frame, and drops a candidate; before the first octet after the scan none is
missing, and after it one is taken. -/
theorem test_missing_octet :
    (after (alignedPart (.aligned 0 true []) none none []) [.missingOctet]).feed.alignment = .aligned 1 true [true] ∧
    (after (alignedPart (.confirming 0 0xE4) none none []) [.missingOctet]).feed.alignment = .hunting [] ∧
    (after namedPart [.missingOctet]).feed = namedPart.feed ∧
    (after namedPart [.feedOctet (oc 7), .missingOctet]).feed.alignment =
      .hunting [oc 7, { data := 0, stopError := true }] := by decide +kernel

/-- R175's check value. -/
theorem test_crc : crc16 (glyphs "123456789") = 0x29B1 ∧ crc16 [] = 0xFFFF := by decide +kernel

/-- The last octet of RETIRE SERVICE of key 1. -/
theorem test_message_dispatched :
    let s := (after servedPart []).withFeed { servedPart.feed with alignment := .aligned 12 true [] }
    let s := s.withUnpacker { state := .body 1, buffer := retireOctets.dropLast.map oc, badCount := 0 }
    last (after s [.feedOctet (oc (retireOctets.getLast?.getD 0))]) = some (9, 0, 1) := by decide +kernel

/-- Two records of ALERT in a row change the station state (R170). -/
theorem test_station_debounced : (after namedPart [stationRecord 2 0x58 1 2]).board = .showing ∧
    (after namedPart [stationRecord 2 0x58 1 2, stationRecord 2 0x58 2 2]).board = .alert := by decide +kernel

/-! ### The Place Directory -/

theorem test_write_lands : last (after writingPart [.writeComplete true]) = some (4, 0, 700) ∧
    slotState (after writingPart [.writeComplete true]).dir 700 = .valid ∧
    last (after writingPart [.writeComplete false]) = some (4, 14, 700) := by decide +kernel

/-- 4.13: the write abandons the gather, whose two messages are answered first, with the mask of sectors 2 and 3. -/
theorem test_write_abandons_gather :
    answers (after gatheringPart [.writePlace (asks 4) (writeOf 700 "Marlow")]) = [(1, 13, 12), (2, 13, 12)] ∧
    slotState (after gatheringPart [.writePlace (asks 4) (writeOf 700 "Marlow")]).dir 700 = .writing := by decide +kernel

/-- 4.12: place 5 in use; and a gather that takes a second sector restarts its 40 ms. -/
theorem test_erase_sector : last (after servedPart [.eraseSector (asks 1) 0]) = some (1, 12, 5) ∧
    gatheringPart.dir.op = .gathering demoErase 40 ∧ erasingPart.dir.op = .erasing demoErase (firstOf 2 true) := by
  decide +kernel

/-- 4.12: the second sector's end answers both messages with the mask of sectors 2 and 3. -/
theorem test_erase_ends :
    (after erasingPart [.sectorEraseComplete]).dir.op = .erasing lastErase (firstOf 3 true) ∧
    answers (after erasingPart [.sectorEraseComplete, .sectorEraseComplete]) = [(1, 0, 12), (2, 0, 12)] ∧
    (after erasingPart [.sectorEraseComplete, .sectorEraseComplete]).dir.op = .ready := by decide +kernel

theorem test_suspend_and_resume : last (after suspendingPart [.suspensionComplete]) = some (3, 0, 300) ∧
    last (after suspendedPart [.resumeErase (asks 8)]) = some (8, 0, 0) ∧
    last (after namedPart [.resumeErase (asks 8)]) = some (8, 15, 0) ∧
    last (after gatheringPart [.suspendErase (asks 8)]) = some (8, 0, 300) := by decide +kernel

/-- Sectors 0 and 7 locked; freeing needs the staff key. -/
theorem test_locks : last lockedPart = some (5, 0, 0x81) ∧ lockedPart.dir.locks = [0, 7] ∧
    last (after lockedPart [.freeSectors (asks 6) 1]) = some (6, 16, 0) ∧
    last (after keyedPart [.freeSectors (asks 6) 1, .lockChangeComplete]) = some (6, 0, 0x80) := by decide +kernel

/-- 4.14: a reset during an erase leaves the sector's slots DEFECTIVE after the scan. -/
theorem test_scan_after_cut_erase :
    let t := after erasingPart [.resetLineAssert, .resetRelease false true, .scanEnd]
    (slotState t.dir 300, slotState t.dir 500, slotState t.dir 5, t.dir.op) = (.defective, .blank, .valid, .ready) := by
  decide +kernel

theorem test_read_place : last (after namedPart [.readPlace quiet 1024]) = some (0, 6, 0) ∧
    (after namedPart [.readPlace quiet 1023]).results.queue = [.read 0 (.place 1023)] := by decide +kernel

/-! ### Paint, panels, settings -/

/-- 6.13: the hold, its lapse and its releases. -/
theorem test_hold : last (after namedPart [.holdBoard (asks 1)]) = some (1, 0, 5) ∧
    last (after namedPart [.releaseBoard (asks 2)]) = some (2, 17, namedPart.paint.dirty.length) ∧
    (after buildPart [.holdLapse]).paint.hold = .lapsed ∧
    last (after buildPart [.holdLapse, .releaseBoard (asks 2)]) = some (2, 18, 0) := by decide +kernel

/-- 7.8: a banner of 30 ordinary glyphs is 209 wide; 161 glyphs are refused. -/
theorem test_banner :
    last (after namedPart [.setBanner (asks 1) { text := List.replicate 30 0x41, duration := 0 }]) = some (1, 0, 209) ∧
    last (after namedPart [.setBanner (asks 1) { text := List.replicate 161 0x41, duration := 0 }]) = some (1, 6, 0) ∧
    last (after banneredPart [.clearBanner (asks 1)]) = some (1, 0, 1) ∧ (after banneredPart [.bannerExpiry]).paint.banner = none := by
  decide +kernel

/-- 11.1: line 0 of an empty board is EMPTY, and the clock line holds the minute 06:12. -/
def narrowPart : State := after State.reset [.resetRelease false false, .scanEnd, stationRecord 1 0x74 30 0]

theorem test_bring_up : (narrowPart.board, narrowPart.time.now) = (.showing, 192) ∧ (composeTable narrowPart 0).layout = .empty ∧
    (composeClock narrowPart).layout = .clock (some 372) := by decide +kernel

/-- 5.10: the layout of record 101 under the filters "3" and "3", "4". -/
def filteredPart (filter : List String) : State :=
  let s := after narrowPart [.setBoard quiet { filter := some (filter.map glyphs) },
    .writePlace quiet { place := 1, entry := kingsbridge (some "Kingsbridge Pk") }, .writeComplete true, .holdBoard quiet,
    .postService quiet (posted 101 1 420 0 1)]
  s

theorem test_departure_layout :
    (composeTable (filteredPart ["3"]) 0).layout = .departure 101 2 false none 6 ∧
    (composeTable (filteredPart ["3", "4"]) 0).layout = .departure 101 4 false (some .large) 6 := by decide +kernel

/-- A scroll of 348 columns on a board 192 wide: 347 to −192, and −1 back to a pause at 0 (6.12). -/
theorem test_scroll_step :
    let strip := List.replicate 348 (0 : Column)
    (scrollStep narrowPart (.moving strip 347 0)).map StepResult.offset = some (-192) ∧
    (scrollStep narrowPart (.moving strip (-192) 0)).map StepResult.offset = some (-191) := by decide +kernel

theorem test_scroll_lands :
    let s := withJob (movingPart (-1) 5) (some (.callingStep (some { offset := 0, image := [] })))
    (after s [.callingStepComplete]).paint.callingScroll = .paused (List.replicate 300 0) 2000 ∧
    (after (withJob (movingPart 7 5) (some (.bannerStep (some (5, { offset := 8, image := [] }))))) [.bannerStepComplete]).paint.bannerScroll =
      .moving (List.replicate 300 0) 8 5 := by decide +kernel

/-- At 40 steps a second a step falls due each 25 ms. -/
theorem test_scroll_timers :
    let s := banneredPart.withPaint { banneredPart.paint with callingScroll := .paused [0] 0, job := some (.clock none) }
    (after s [.scrollPauseExpiry .calling]).paint.callingScroll = .moving [0] 0 25000000 ∧
    (after (withJob (movingPart 0 0) (some (.clock none))) [.scrollStepDue .calling]).paint.callingStep = true := by decide +kernel

/-- A compose places its layout; a clock job on a line it owns too, and a banner's on its line. -/
theorem test_jobs_place :
    (after (withJob namedPart (some (.table 2 (some someImage)))) [.tableJobComplete]).paint.layouts[2]? = some .empty ∧
    (after (withJob namedPart (some (.clock (some someImage)))) [.clockJobComplete]).paint.layouts[5]? = some .empty ∧
    (after (withJob banneredPart (some (.bannerCompose (some (5, someImage))))) [.bannerComposeComplete]).paint.layouts[5]? =
      some .empty := by decide +kernel

/-- A shift of a 192-column board lasts 12 modules of 512 pixels, 0.983 ms (7.7), and its end latches. -/
theorem test_refresh_and_shift :
    ((after narrowPart [.refresh]).frame.shift.map Shift.remaining).map (· / 1000) = some 983 ∧
    (after narrowPart [.refresh, .shiftComplete]).frame.blank = false := by decide +kernel

/-- The first octet of an even frame, and a result's octets: marker, length 7, kind, tag (R178). -/
theorem test_return_octet : (after (returningPart 0 0 []) [.returnOctet]).results.line = some 0x1B ∧
    (after ((returningPart 2 0 []).withResults { (returningPart 2 0 []).results with queue := [.result 0x03 9 0 1] })
      [.returnOctet, .returnOctet, .returnOctet, .returnOctet]).results.line = some 9 := by decide +kernel

/-- SET BOARD with the filter "3", "4" changes one setting (11.1); a rate of 9 is clamped to 10; a table with records refuses
another origin with their number. -/
theorem test_set_board :
    last (after narrowPart [.setBoard (asks 1) { filter := some [glyphs "3", glyphs "4"] }]) = some (1, 0, 1) ∧
    last (after narrowPart [.setBoard (asks 1) { scrollRate := some 9 }]) = some (1, 1, 1) ∧
    last (after buildPart [.setBoard (asks 1) { origin := some 200 }]) = some (1, 19, 3) := by decide +kernel

theorem test_restart :
    let t := after servedPart [.restart]
    (t.records.length, t.time.minute, t.board, t.dir.op) = (0, 600, .showing, .scanning) := by
  unfold State.records; decide +kernel

theorem test_read_board : (after namedPart [.readBoard (asks 2)]).results.queue = [.read 2 .board] := by decide +kernel

theorem test_staff_key : (after namedPart [.staffKeyInputChange true]).key.asserted = false ∧ keyedPart.key.asserted = true := by
  decide +kernel

theorem test_resets : (after servedPart [.powerOn]).phase = .inReset ∧ (after servedPart [.resetLineAssert]).time.valid = false ∧
    slotState (after servedPart [.resetLineAssert, .resetRelease true true, .scanEnd]).dir 5 = .valid ∧
    (after servedPart [.powerOn, .resetRelease true true]).geometry = 3 := by decide +kernel

end Sys2Proof.Tests
end

/-! SUPPORT. What a step is made of: the events of the Service Table and the Place Directory, the arbiter's decision, and changes
beside both; and that every step is a chain of these, a tick, a hard reset or a release. -/

namespace Sys2Proof.Machine

/-! ### Changes beside the table and the directory -/

/-- The phase, elapsed time, settings, Service Table and Place Directory stand. -/
def Beside (s t : State) : Prop :=
  t.phase = s.phase ∧ t.elapsed = s.elapsed ∧ t.settings = s.settings ∧ t.table = s.table ∧ t.dir = s.dir

theorem Beside.refl (s : State) : Beside s s := ⟨rfl, rfl, rfl, rfl, rfl⟩

theorem Beside.trans {s t u : State} (h : Beside s t) (g : Beside t u) : Beside s u := by
  obtain ⟨h1, h2, h3, h4, h5⟩ := h
  obtain ⟨g1, g2, g3, g4, g5⟩ := g
  exact ⟨g1.trans h1, g2.trans h2, g3.trans h3, g4.trans h4, g5.trans h5⟩

theorem withPaint_beside (s : State) (v : Paint) : Beside s (s.withPaint v) := ⟨rfl, rfl, rfl, rfl, rfl⟩
theorem withFeed_beside (s : State) (v : FeedReceiver) : Beside s (s.withFeed v) := ⟨rfl, rfl, rfl, rfl, rfl⟩
theorem withTime_beside (s : State) (v : Timekeeper) : Beside s (s.withTime v) := ⟨rfl, rfl, rfl, rfl, rfl⟩
theorem withFrame_beside (s : State) (v : FrameStore) : Beside s (s.withFrame v) := ⟨rfl, rfl, rfl, rfl, rfl⟩
theorem withUnpacker_beside (s : State) (v : Unpacker) : Beside s (s.withUnpacker v) := ⟨rfl, rfl, rfl, rfl, rfl⟩
theorem withResults_beside (s : State) (v : ResultSender) : Beside s (s.withResults v) := ⟨rfl, rfl, rfl, rfl, rfl⟩
theorem withKey_beside (s : State) (v : StaffKey) : Beside s (s.withKey v) := ⟨rfl, rfl, rfl, rfl, rfl⟩
theorem withPending_beside (s : State) (v : List Instr) : Beside s (s.withPending v) := ⟨rfl, rfl, rfl, rfl, rfl⟩

/-- A choice between two changes beside both. -/
theorem beside_ite {p : Prop} [Decidable p] {s t u : State} (ht : Beside s t) (hu : Beside s u) :
    Beside s (if p then t else u) := by
  split
  · exact ht
  · exact hu

theorem answer_beside (kind : Byte) (h : Header) (o d : Nat) (s : State) : Beside s (answer kind h o d s) := by simp [Beside]

theorem answerAll_beside (kind : Byte) (hs : List Header) (o d : Nat) (s : State) : Beside s (answerAll kind hs o d s) := by
  simp [Beside]

theorem answerRead_beside (kind : Byte) (h : Header) (o d : Nat) (s : State) : Beside s (answerRead kind h o d s) := by
  simp [Beside]

theorem enqueueRead_beside (tag : Byte) (o : ReadObject) (s : State) : Beside s (enqueueRead tag o s) := by simp [Beside]

/-! ### The board state and the Paint Engine -/

theorem stopScroll_beside (which : ScrollId) (s : State) : Beside s (stopScroll which s) := by
  cases which <;> exact withPaint_beside _ _

theorem revokeJob_beside (s : State) : Beside s (revokeJob s) := by
  unfold revokeJob
  split
  · exact .refl s
  · split
    · exact beside_ite (.refl s) (withPaint_beside _ _)
    · exact .refl s

theorem yieldCallingLine_beside (before : Option Nat) (s : State) : Beside s (yieldCallingLine before s) :=
  beside_ite (stopScroll_beside _ _) (.refl s)

theorem rehomeBanner_beside (before : Option Nat) (s : State) : Beside s (rehomeBanner before s) :=
  (beside_ite (.refl s) (stopScroll_beside _ _)).trans (withPaint_beside _ _)

theorem applyBoard_beside (new : BoardState) (s : State) : Beside s (applyBoard new s) := by
  have h : Beside s (raiseClock (markLines (tableLines (s.withBoard new)) (s.withBoard new))) := ⟨rfl, rfl, rfl, rfl, rfl⟩
  exact ((h.trans (rehomeBanner_beside _ _)).trans (yieldCallingLine_beside _ _)).trans (revokeJob_beside _)

theorem selectBoard_beside (s : State) : Beside s (selectBoard s) :=
  beside_ite (.refl s) (applyBoard_beside _ _)

theorem acceptHold_beside (h : Header) (s : State) : Beside s (acceptHold h s) :=
  (withPaint_beside _ _).trans (answer_beside _ _ _ _ _)

theorem acceptRelease_beside (h : Header) (s : State) : Beside s (acceptRelease h s) := by
  unfold acceptRelease
  dsimp only
  split
  · exact (withPaint_beside _ _).trans (answer_beside _ _ _ _ _)
  · exact (withPaint_beside _ _).trans (answer_beside _ _ _ _ _)
  · exact answer_beside _ _ _ _ _

theorem lapseHold_beside (s : State) : Beside s (lapseHold s) := by
  unfold lapseHold
  split
  · exact withPaint_beside _ _
  · exact .refl s
  · exact .refl s

theorem acceptSetBanner_beside (h : Header) (f : BannerFields) (s : State) : Beside s (acceptSetBanner h f s) := by
  unfold acceptSetBanner
  split
  · exact ((((withPaint_beside _ _).trans (stopScroll_beside _ _)).trans (withPaint_beside _ _)).trans
      ((yieldCallingLine_beside _ _).trans (revokeJob_beside _))).trans (answer_beside _ _ _ _ _)
  · exact answer_beside _ _ _ _ _

theorem removeBanner_beside (s : State) : Beside s (removeBanner s) := by
  unfold removeBanner
  refine Beside.trans ?_ (revokeJob_beside _)
  split <;> split <;> exact ⟨rfl, rfl, rfl, rfl, rfl⟩

theorem acceptClearBanner_beside (h : Header) (s : State) : Beside s (acceptClearBanner h s) := by
  unfold acceptClearBanner
  split
  · exact (removeBanner_beside s).trans (answer_beside _ _ _ _ _)
  · exact answer_beside _ _ _ _ _

theorem expireBanner_beside (s : State) : Beside s (expireBanner s) := by
  unfold expireBanner
  split
  · exact beside_ite (removeBanner_beside s) (.refl s)
  · exact .refl s

theorem withScroll_beside (which : ScrollId) (sc : Scroll) (s : State) : Beside s (withScroll which sc s) := by
  cases which <;> exact withPaint_beside _ _

theorem clearStep_beside (which : ScrollId) (s : State) : Beside s (clearStep which s) := by
  cases which <;> exact withPaint_beside _ _

theorem endPause_beside (which : ScrollId) (s : State) : Beside s (endPause which s) := by
  unfold endPause
  split
  · exact withScroll_beside _ _ _
  · exact .refl s
  · exact .refl s

theorem stepDue_beside (which : ScrollId) (s : State) : Beside s (stepDue which s) := by
  unfold stepDue
  split
  · cases which <;> exact (withScroll_beside _ _ _).trans (withPaint_beside _ _)
  · exact .refl s
  · exact .refl s

theorem placeImage_beside (line : Nat) (image : List Column) (s : State) : Beside s (placeImage line image s) :=
  withFrame_beside _ _

theorem placeComposed_beside (line : Nat) (c : Composed) (s : State) : Beside s (placeComposed line c s) :=
  (placeImage_beside _ _ _).trans (withPaint_beside _ _)

theorem restartScroll_beside (which : ScrollId) (strip : Option (List Column)) (s : State) :
    Beside s (restartScroll which strip s) := by
  unfold restartScroll
  split
  · exact withScroll_beside _ _ _
  · exact stopScroll_beside _ _

theorem landStep_beside (which : ScrollId) (r : StepResult) (s : State) : Beside s (landStep which r s) := by
  unfold landStep
  split
  · exact beside_ite ((clearStep_beside _ _).trans (withScroll_beside _ _ _)) (withScroll_beside _ _ _)
  · exact .refl s
  · exact .refl s

theorem tableJobDone_beside (s : State) : Beside s (tableJobDone s) := by
  unfold tableJobDone
  split
  · refine Beside.trans (t := freeEngine s) (withPaint_beside _ _) ?_
    dsimp only
    split
    · refine beside_ite ((placeComposed_beside _ _ _).trans (beside_ite ?_ (.refl _))) (.refl _)
      exact (clearStep_beside _ _).trans (restartScroll_beside _ _ _)
    · exact .refl _
  · exact .refl s

theorem clockJobDone_beside (s : State) : Beside s (clockJobDone s) := by
  unfold clockJobDone
  split
  · refine Beside.trans (t := freeEngine s) (withPaint_beside _ _) ?_
    dsimp only
    split
    · exact beside_ite (placeComposed_beside _ _ _) (.refl _)
    · exact .refl _
  · exact .refl s

theorem callingStepDone_beside (s : State) : Beside s (callingStepDone s) := by
  unfold callingStepDone
  split
  · refine Beside.trans (t := freeEngine s) (withPaint_beside _ _) ?_
    dsimp only
    split
    · exact beside_ite ((landStep_beside _ _ _).trans (placeImage_beside _ _ _)) (.refl _)
    · exact .refl _
  · exact .refl s

theorem bannerComposeDone_beside (s : State) : Beside s (bannerComposeDone s) := by
  unfold bannerComposeDone
  split
  · refine Beside.trans (t := freeEngine s) (withPaint_beside _ _) ?_
    dsimp only
    split
    · exact beside_ite ((placeComposed_beside _ _ _).trans (restartScroll_beside _ _ _)) (.refl _)
    · exact .refl _
  · exact .refl s

theorem bannerStepDone_beside (s : State) : Beside s (bannerStepDone s) := by
  unfold bannerStepDone
  split
  · refine Beside.trans (t := freeEngine s) (withPaint_beside _ _) ?_
    dsimp only
    split
    · exact beside_ite ((landStep_beside _ _ _).trans (placeImage_beside _ _ _)) (.refl _)
    · exact .refl _
  · exact .refl s

/-! ### Time, lines and the staff key -/

theorem recomputeNow_beside (s : State) : Beside s (recomputeNow s) := withTime_beside _ _

theorem repaintRequests_beside (s : State) : Beside s (repaintRequests s) := ⟨rfl, rfl, rfl, rfl, rfl⟩

theorem refreshFeed_beside (s : State) : Beside s (refreshFeed s) := by
  unfold refreshFeed
  dsimp only
  split
  · exact withTime_beside _ _
  · exact (withTime_beside _ _).trans (selectBoard_beside _)

theorem lapseFeed_beside (s : State) : Beside s (lapseFeed s) := by
  unfold lapseFeed
  split
  · exact .refl s
  · exact (withTime_beside _ _).trans (selectBoard_beside _)

theorem applyHoldover_beside (s : State) : Beside s (applyHoldover s) :=
  beside_ite (lapseFeed_beside s) (.refl s)

theorem debounceStation_beside (code : Byte) (s : State) : Beside s (debounceStation code s) := by
  unfold debounceStation
  split
  · exact withFeed_beside _ _
  · exact beside_ite (beside_ite (withFeed_beside _ _) ((withFeed_beside _ _).trans (selectBoard_beside _)))
      (withFeed_beside _ _)

theorem refreshFrame_beside (s : State) : Beside s (refreshFrame s) := withFrame_beside _ _

theorem latchShift_beside (s : State) : Beside s (latchShift s) := by
  unfold latchShift
  split
  · exact withFrame_beside _ _
  · exact .refl s

theorem sendOverhead_beside (s : State) : Beside s (sendOverhead s) :=
  beside_ite (withResults_beside _ _) (beside_ite (withResults_beside _ _) (withResults_beside _ _))

theorem sendPayload_beside (s : State) : Beside s (sendPayload s) := by
  unfold sendPayload
  dsimp only
  split
  · exact withResults_beside _ _
  · split <;> exact withResults_beside _ _

theorem returnSlot_beside (s : State) : Beside s (returnSlot s) :=
  beside_ite (withResults_beside _ _) (beside_ite (sendOverhead_beside s) (sendPayload_beside s))

theorem keyInputChange_beside (closed : Bool) (s : State) : Beside s (keyInputChange closed s) := withKey_beside _ _

theorem keyDebounced_beside (s : State) : Beside s (keyDebounced s) := by
  unfold keyDebounced
  split
  · exact withKey_beside _ _
  · exact .refl s

theorem withUnpack_beside (st : UnpackState) (buffer : List Octet) (s : State) : Beside s (withUnpack st buffer s) :=
  withUnpacker_beside _ _

theorem countBad_beside (s : State) : Beside s (countBad s) := withUnpacker_beside _ _

theorem breakStream_beside (s : State) : Beside s (breakStream s) := by
  unfold breakStream
  split
  · exact .refl s
  · exact countBad_beside s
  · exact countBad_beside s

theorem withAlignment_beside (a : Alignment) (s : State) : Beside s (withAlignment a s) := withFeed_beside _ _

/-! ### The elementary changes -/

/-- An event of the Service Table, before the arbiter's decision. -/
inductive TableEvent (s : State) : State → Prop
  | post (h : Header) (f : PostFields) : TableEvent s (acceptPost h f s)
  | amend (h : Header) (f : AmendFields) : TableEvent s (acceptAmend h f s)
  | retire (h : Header) (key : Nat) : TableEvent s (acceptRetire h key s)
  | clear (h : Header) : TableEvent s (acceptClear h s)
  | expiry : TableEvent s (windowExpiry s)
  | stages (p : OriginPassage) : TableEvent s (timeStages p s)

/-- An event of the Place Directory, before the arbiter's decision. -/
inductive DirectoryEvent (s : State) : State → Prop
  | write (h : Header) (f : WriteFields) : DirectoryEvent s (acceptWrite h f s)
  | written (verified : Bool) : DirectoryEvent s (completeWrite verified s)
  | erase (h : Header) (sector : Nat) : DirectoryEvent s (acceptErase h sector s)
  | gathered : DirectoryEvent s (gatherExpiry s)
  | erased : DirectoryEvent s (sectorDone s)
  | suspend (h : Header) : DirectoryEvent s (acceptSuspend h s)
  | suspended : DirectoryEvent s (suspensionDone s)
  | resume (h : Header) : DirectoryEvent s (acceptResume h s)
  | lock (h : Header) (sectors : Byte) : DirectoryEvent s (acceptLock h sectors s)
  | free (h : Header) (sectors : Byte) : DirectoryEvent s (acceptFree h sectors s)
  | locked : DirectoryEvent s (lockDone s)
  | scanned : DirectoryEvent s (scanDone s)

/-- One change of the running part: an event of the table or the directory, SET BOARD, RESTART, the arbiter's decision, or a
change beside all of them. -/
inductive Change (s : State) : State → Prop
  | beside {t : State} (h : Beside s t) : Change s t
  | settle : Change s (settle s)
  | table {t : State} (h : TableEvent s t) : Change s t
  | directory {t : State} (h : DirectoryEvent s t) : Change s t
  | setBoard (h : Header) (f : BoardFields) : Change s (acceptSetBoard h f s)
  | restart : Change s (acceptRestart s)

/-- A chain of changes. -/
def Changes : State → State → Prop := Relation.ReflTransGen Change

theorem Changes.refl (s : State) : Changes s s := Relation.ReflTransGen.refl

theorem Changes.trans {s t u : State} (h : Changes s t) (g : Changes t u) : Changes s u := Relation.ReflTransGen.trans h g

theorem Change.changes {s t : State} (h : Change s t) : Changes s t := .single h

theorem Beside.changes {s t : State} (h : Beside s t) : Changes s t := .single (.beside h)

theorem settle_changes {s t : State} (h : Changes s t) : Changes s (settle t) := h.trans (.single .settle)

/-- A choice between two chains. -/
theorem changes_ite {p : Prop} [Decidable p] {s t u : State} (ht : Changes s t) (hu : Changes s u) :
    Changes s (if p then t else u) := by
  split
  · exact ht
  · exact hu

/-- A property every change keeps, every chain keeps. -/
theorem Changes.keep {P : State → Prop} (hP : ∀ s t, Change s t → P s → P t) {s t : State} (h : Changes s t) (hs : P s) :
    P t := by
  induction h with
  | refl => exact hs
  | tail _ hc ih => exact hP _ _ hc ih

/-! ### Every event is a chain of changes -/

theorem acceptMessage_changes (h : Header) (m : Message) (s : State) : Changes s (acceptMessage h m s) := by
  cases m with
  | post f => exact (Change.table (.post h f)).changes
  | amend f => exact (Change.table (.amend h f)).changes
  | retire key => exact (Change.table (.retire h key)).changes
  | clearBoard => exact (Change.table (.clear h)).changes
  | holdBoard => exact (acceptHold_beside h s).changes
  | releaseBoard => exact (acceptRelease_beside h s).changes
  | setBanner f => exact (acceptSetBanner_beside h f s).changes
  | clearBanner => exact (acceptClearBanner_beside h s).changes
  | writePlace f => exact (Change.directory (.write h f)).changes
  | eraseSector sector => exact (Change.directory (.erase h sector)).changes
  | suspendErase => exact (Change.directory (.suspend h)).changes
  | resumeErase => exact (Change.directory (.resume h)).changes
  | lockSectors sectors => exact (Change.directory (.lock h sectors)).changes
  | freeSectors sectors => exact (Change.directory (.free h sectors)).changes
  | readService key => exact (beside_ite (enqueueRead_beside _ _ _) (answerRead_beside _ _ _ _ _)).changes
  | readPlace place => exact (beside_ite (enqueueRead_beside _ _ _) (answerRead_beside _ _ _ _ _)).changes
  | readBoard => exact (enqueueRead_beside _ _ _).changes
  | setBoard f => exact (Change.setBoard h f).changes
  | restart => exact Change.restart.changes

theorem dispatch_changes (kind : Byte) (h : Header) (params : List Byte) (s : State) :
    Changes s (dispatch kind h params s) := by
  unfold dispatch
  split
  · exact (answer_beside _ _ _ _ _).changes
  · split
    · exact (beside_ite (answerRead_beside _ _ _ _ _) (answer_beside _ _ _ _ _)).changes
    · exact settle_changes (acceptMessage_changes _ _ _)

theorem dispatchOctets_changes (octets : List Byte) (s : State) : Changes s (dispatchOctets octets s) := by
  unfold dispatchOctets
  split
  · exact dispatch_changes _ _ _ _
  · exact .refl s

/-- The state an octet leaves, whether or not it finds a message bad. -/
def Taken.state : Taken → State
  | .done s => s
  | .bad s _ => s

theorem takeOctet_changes (o : Octet) (s : State) : Changes s (takeOctet o s).state := by
  unfold takeOctet
  dsimp only
  split
  · split
    · exact (withUnpack_beside _ _ _).changes
    · exact .refl s
  · split
    · exact (withUnpack_beside _ _ _).changes
    · exact (countBad_beside s).changes
  · split_ifs
    · exact (countBad_beside s).changes
    · exact (withUnpack_beside _ _ _).changes
    · exact (withUnpack_beside _ _ s).changes.trans (dispatchOctets_changes _ _)
    · exact (countBad_beside s).changes

theorem takeOctets_changes (octets : List Octet) (s : State) : Changes s (takeOctets octets s).1 := by
  induction octets generalizing s with
  | nil => exact .refl s
  | cons o rest ih =>
    have h := takeOctet_changes o s
    unfold takeOctets
    split
    · next u hu => rw [hu] at h; exact h.trans (ih u)
    · next u held hu => rw [hu] at h; exact h

theorem examine_changes (fuel : Nat) (octets : List Octet) (s : State) : Changes s (examine fuel octets s) := by
  induction fuel generalizing octets s with
  | zero => exact .refl s
  | succ n ih =>
    have h := takeOctets_changes octets s
    unfold examine
    split
    · next u hu => rw [hu] at h; exact h
    · next u again hu => rw [hu] at h; exact h.trans (ih again u)

theorem timeStages_changes {s u : State} (p : OriginPassage) (h : Beside s u) : Changes s (timeStages p u) :=
  h.changes.trans (Change.table (.stages p)).changes

theorem takeStationTime_changes (minute second : Nat) (s : State) : Changes s (takeStationTime minute second s) := by
  unfold takeStationTime
  refine changes_ite (changes_ite ?_ ?_) (.refl s)
  · exact changes_ite (withTime_beside _ _).changes (changes_ite (withTime_beside _ _).changes
      (timeStages_changes _ (withTime_beside _ _)))
  · exact timeStages_changes _ ((withTime_beside _ _).trans (selectBoard_beside _))

theorem judgeRecord_changes (o1 o2 o3 o4 o5 : Octet) (s : State) : Changes s (judgeRecord o1 o2 o3 o4 o5 s) := by
  refine changes_ite ?_ (.refl s)
  exact (((withFeed_beside s _).trans (refreshFeed_beside _)).changes.trans (takeStationTime_changes _ _ _)).trans
    (debounceStation_beside _ _).changes

theorem overheadOctet_changes (o : Octet) (even : Bool) (s : State) : Changes s (overheadOctet o even s) := by
  unfold overheadOctet
  split
  · exact (withFeed_beside _ _).changes
  · refine changes_ite (beside_ite (withFeed_beside _ _) (withFeed_beside _ _)).changes ?_
    refine (withFeed_beside s _).changes.trans (changes_ite ?_ (.refl _))
    unfold judgeGathered
    split
    · exact judgeRecord_changes _ _ _ _ _ _
    · exact .refl _

theorem loseAlignment_beside (s : State) : Beside s (loseAlignment s) := (withFeed_beside _ _).trans (breakStream_beside _)

theorem receiveOctet_changes (o : Octet) (s : State) : Changes s (receiveOctet o s) := by
  unfold receiveOctet
  split
  · exact (beside_ite (withAlignment_beside _ _) (withAlignment_beside _ _)).changes
  · exact (beside_ite (withFeed_beside _ _) (withAlignment_beside _ _)).changes
  · exact (withAlignment_beside _ _).changes
  · refine changes_ite (beside_ite (withAlignment_beside _ _) (loseAlignment_beside _)).changes ?_
    refine (withAlignment_beside _ s).changes.trans (changes_ite (overheadOctet_changes _ _ _) ?_)
    exact examine_changes _ _ _

theorem advanceMinute_changes (s : State) : Changes s (advanceMinute s) :=
  changes_ite (timeStages_changes _ (withTime_beside _ _)) (.refl s)

/-! ### Every step -/

/-- What a command of the running part does: a chain of changes; but for the hard resets and, in reset, the release. -/
inductive ExecCase (s : State) : State → Prop
  | beside {t : State} (h : Beside s t) : ExecCase s t
  | chain {t : State} (hr : Running s) (h : Changes s t) : ExecCase s t
  | reset : ExecCase s (hardReset s)
  | release (geo1 geo0 : Bool) (hr : s.phase = .inReset) : ExecCase s (releaseReset geo1 geo0 s)

theorem event_case {f : State → State} {s : State} (h : Changes s (f s)) : ExecCase s (event f s) := by
  unfold event
  split
  · next hp => exact .chain hp (settle_changes h)
  · exact .beside (.refl s)

theorem feedEvent_case {f : State → State} {s : State} (h : Changes s (f s)) : ExecCase s (feedEvent f s) := by
  unfold feedEvent
  split
  · next hp => exact .chain hp (changes_ite (.refl s) (settle_changes h))
  · exact .beside (.refl s)

theorem exec_case {i : Instr} {s t : State} (h : exec i s = .next t) : ExecCase s t := by
  have next {u : State} (hu : ExecCase s u) (e : (Host.Outcome.next u : Host.Outcome State Fault Refusal) = .next t) :
      ExecCase s t := by
    cases e; exact hu
  have quiet {f : State → State} (hf : Beside s (f s)) : ExecCase s (event f s) := event_case hf.changes
  have heard {m : Message} {hd : Header} : ExecCase s (feedEvent (acceptMessage hd m) s) :=
    feedEvent_case (acceptMessage_changes hd m s)
  cases i with
  | feedOctet o =>
    exact next (feedEvent_case (f := takeOnLine o) ((withFeed_beside s _).changes.trans (receiveOctet_changes o _))) h
  | missingOctet => exact next (feedEvent_case (changes_ite (receiveOctet_changes _ _) (.refl s))) h
  | overheadRecord o1 o2 o3 o4 o5 => exact next (feedEvent_case (judgeRecord_changes _ _ _ _ _ _)) h
  | minuteEvent => exact next (event_case (advanceMinute_changes s)) h
  | feedLapsed => exact next (quiet (lapseFeed_beside s)) h
  | postService hd f => exact next (heard (m := .post f)) h
  | amendService hd f => exact next (heard (m := .amend f)) h
  | retireService hd key => exact next (heard (m := .retire key)) h
  | clearBoard hd => exact next (heard (m := .clearBoard)) h
  | readService hd key => exact next (heard (m := .readService key)) h
  | sweepWindowExpiry => exact next (event_case (Change.table .expiry).changes) h
  | writePlace hd f => exact next (heard (m := .writePlace f)) h
  | writeComplete v => exact next (event_case (Change.directory (.written v)).changes) h
  | eraseSector hd sector => exact next (heard (m := .eraseSector sector)) h
  | gatherWindowExpiry => exact next (event_case (Change.directory .gathered).changes) h
  | sectorEraseComplete => exact next (event_case (Change.directory .erased).changes) h
  | suspendErase hd => exact next (heard (m := .suspendErase)) h
  | suspensionComplete => exact next (event_case (Change.directory .suspended).changes) h
  | resumeErase hd => exact next (heard (m := .resumeErase)) h
  | lockSectors hd sectors => exact next (heard (m := .lockSectors sectors)) h
  | freeSectors hd sectors => exact next (heard (m := .freeSectors sectors)) h
  | lockChangeComplete => exact next (event_case (Change.directory .locked).changes) h
  | readPlace hd place => exact next (heard (m := .readPlace place)) h
  | scanEnd => exact next (event_case (Change.directory .scanned).changes) h
  | holdBoard hd => exact next (heard (m := .holdBoard)) h
  | releaseBoard hd => exact next (heard (m := .releaseBoard)) h
  | holdLapse => exact next (quiet (lapseHold_beside s)) h
  | setBanner hd f => exact next (heard (m := .setBanner f)) h
  | clearBanner hd => exact next (heard (m := .clearBanner)) h
  | bannerExpiry => exact next (quiet (expireBanner_beside s)) h
  | setBoard hd f => exact next (heard (m := .setBoard f)) h
  | restart => exact next (feedEvent_case Change.restart.changes) h
  | readBoard hd => exact next (heard (m := .readBoard)) h
  | tableJobComplete => exact next (quiet (tableJobDone_beside s)) h
  | clockJobComplete => exact next (quiet (clockJobDone_beside s)) h
  | callingStepComplete => exact next (quiet (callingStepDone_beside s)) h
  | bannerComposeComplete => exact next (quiet (bannerComposeDone_beside s)) h
  | bannerStepComplete => exact next (quiet (bannerStepDone_beside s)) h
  | scrollPauseExpiry which => exact next (quiet (endPause_beside which s)) h
  | scrollStepDue which => exact next (quiet (stepDue_beside which s)) h
  | refresh => exact next (quiet (refreshFrame_beside s)) h
  | shiftComplete => exact next (quiet (latchShift_beside s)) h
  | returnOctet => exact next (quiet (returnSlot_beside s)) h
  | staffKeyInputChange closed => exact next (.beside (keyInputChange_beside closed s)) h
  | staffKeyDebounced => exact next (quiet (keyDebounced_beside s)) h
  | powerOn => exact next .reset h
  | resetLineAssert => exact next .reset h
  | resetRelease geo1 geo0 =>
    cases hp : s.phase with
    | inReset => exact next (.release geo1 geo0 hp) h
    | running =>
      refine next (u := releaseReset geo1 geo0 s) (.beside ?_) h
      unfold releaseReset
      rw [hp]
      exact .refl s

theorem fireWhen_changes {due : State → Bool} {f : State → State} {s : State} (h : Changes s (f s)) :
    Changes s (fireWhen due f s) :=
  changes_ite (settle_changes h) (.refl s)

theorem runClock_changes (s : State) : Changes s (runClock s) :=
  changes_ite (changes_ite (withTime_beside _ _).changes (changes_ite (withTime_beside _ _).changes
    (settle_changes (advanceMinute_changes s)))) (.refl s)

/-- A tick: the timers move on, and chains of changes stand before and after the sweep window's own turn. -/
theorem tick_changes (s : State) :
    ∃ u, Changes (advanceTimers s) u ∧ Changes (fireWhen windowDue windowExpiry u) (tick s) := by
  refine ⟨fireWhen freshnessDue lapseFeed (runClock (advanceTimers s)),
    (runClock_changes _).trans (fireWhen_changes (lapseFeed_beside _).changes), ?_⟩
  unfold tick
  refine Changes.trans ?_ (fireWhen_changes (keyDebounced_beside _).changes)
  refine Changes.trans ?_ (fireWhen_changes (refreshFrame_beside _).changes)
  refine Changes.trans ?_ (fireWhen_changes (latchShift_beside _).changes)
  refine Changes.trans ?_ (fireWhen_changes (stepDue_beside .banner _).changes)
  refine Changes.trans ?_ (fireWhen_changes (stepDue_beside .calling _).changes)
  refine Changes.trans ?_ (fireWhen_changes (endPause_beside .banner _).changes)
  refine Changes.trans ?_ (fireWhen_changes (endPause_beside .calling _).changes)
  refine Changes.trans ?_ (fireWhen_changes (expireBanner_beside _).changes)
  refine Changes.trans ?_ (fireWhen_changes (lapseHold_beside _).changes)
  refine Changes.trans ?_ (fireWhen_changes (Change.directory .locked).changes)
  refine Changes.trans ?_ (fireWhen_changes (Change.directory .erased).changes)
  exact fireWhen_changes (Change.directory .gathered).changes

/-- What a step does: what a command does on the queue's rest, or a tick. -/
theorem step_case {s t : State} (h : step s = .next t) :
    (∃ rest, ExecCase (s.withPending rest) t) ∨ (s.phase = .inReset ∧ t = s) ∨ (Running s ∧ t = tick s) := by
  unfold step at h
  split at h
  · cases h
    unfold idle
    split
    · next hp => exact .inr (.inr ⟨hp, rfl⟩)
    · next hp => exact .inr (.inl ⟨hp, rfl⟩)
  · next rest _ => exact .inl ⟨rest, exec_case h⟩

/-- A property that a change of the queue, every change, the timers, the hard resets and the release keep, every step keeps. -/
theorem step_keeps {P : State → Prop} (hchange : ∀ s t, Change s t → P s → P t)
    (htimers : ∀ s, P s → P (advanceTimers s)) (hreset : ∀ s, P s → P (hardReset s))
    (hrelease : ∀ geo1 geo0 s, s.phase = .inReset → P s → P (releaseReset geo1 geo0 s)) {s t : State} (hs : P s)
    (h : step s = .next t) : P t := by
  rcases step_case h with ⟨rest, hc⟩ | ⟨-, rfl⟩ | ⟨-, rfl⟩
  · have hp : P (s.withPending rest) := hchange _ _ (.beside (withPending_beside s rest)) hs
    cases hc with
    | beside h => exact hchange _ _ (.beside h) hp
    | chain _ h => exact h.keep hchange hp
    | reset => exact hreset _ hp
    | release geo1 geo0 hr => exact hrelease _ _ _ hr hp
  · exact hs
  · obtain ⟨u, h1, h2⟩ := tick_changes s
    have hu := h1.keep hchange (htimers s hs)
    exact h2.keep hchange ((fireWhen_changes (Change.table .expiry).changes).keep hchange hu)

end Sys2Proof.Machine

/-! SUPPORT and O5. The Service Table's invariant: what each change of the records makes of the records, their keys and their
references, and that every step keeps the table, its order and its counts right. -/

namespace Sys2Proof.Machine

/-! ### The records of changed slots -/

theorem recordsOf_mapRecords (g : Record → Record) (slots : List (Option Record)) :
    recordsOf (mapRecords g slots) = (recordsOf slots).map g := by
  induction slots with
  | nil => rfl
  | cons o rest ih =>
    cases o <;> simp_all [recordsOf, mapRecords]

theorem recordsOf_keepLive (slots : List (Option Record)) :
    recordsOf (keepLive slots) = (recordsOf slots).filter Record.isLive := by
  induction slots with
  | nil => rfl
  | cons o rest ih =>
    cases o with
    | none => simpa [recordsOf, keepLive] using ih
    | some r => cases hr : r.isLive <;> simp_all [recordsOf, keepLive, Option.filter]

theorem recordsOf_replicate_none (n : Nat) : recordsOf (List.replicate n none) = [] := by
  simp [recordsOf]

/-- A record put into a free slot joins the records. -/
theorem recordsOf_set {slots : List (Option Record)} {i : Nat} (r : Record) (h : slots[i]? = some none) :
    (recordsOf (slots.set i (some r))).Perm (r :: recordsOf slots) := by
  induction slots generalizing i with
  | nil => simp at h
  | cons o rest ih =>
    cases i with
    | zero =>
      obtain rfl : o = none := by simpa using h
      simp [recordsOf]
    | succ i =>
      have hp := ih (i := i) (by simpa using h)
      cases o with
      | none => simpa [recordsOf] using hp
      | some q =>
        have := (hp.cons q).trans (List.Perm.swap r q _)
        simpa [recordsOf] using this

/-! ### References -/

/-- The places a list of records references. -/
def placesOf (l : List Record) : List Nat := l.flatMap referencesOf

theorem references_eq (s : State) (p : Nat) : s.references p = (placesOf s.records).count p := rfl

/-- References divide among the records a test divides. -/
theorem placesOf_filter (q : Record → Bool) (l : List Record) (p : Nat) :
    (placesOf (l.filter q)).count p + (placesOf (l.filter (fun r => !q r))).count p = (placesOf l).count p := by
  induction l with
  | nil => rfl
  | cons r rest ih =>
    cases hr : q r <;> simp [placesOf, hr, List.count_append] at ih ⊢ <;> omega

/-- Replacing one record of a table exchanges its references. -/
theorem placesOf_replace {l : List Record} {old : Record} (new : Record) (hu : (l.map Record.key).Nodup) (ho : old ∈ l)
    (p : Nat) :
    (placesOf (l.map (fun r => if r.key = old.key then new else r))).count p + (referencesOf old).count p
      = (placesOf l).count p + (referencesOf new).count p := by
  induction l with
  | nil => cases ho
  | cons r rest ih =>
    simp only [List.map_cons, List.nodup_cons, List.mem_map, not_exists, not_and] at hu
    by_cases hr : r.key = old.key
    · have hro : old = r := by
        rcases List.mem_cons.1 ho with h | h
        · exact h
        · exact absurd hr.symm (hu.1 old h)
      have hrest : rest.map (fun r => if r.key = old.key then new else r) = rest := by
        refine (List.map_congr_left fun q hq => ?_).trans (List.map_id rest)
        rw [if_neg (fun hk => hu.1 q hq (hk.trans hr.symm))]
        rfl
      subst hro
      simp only [placesOf, List.map_cons, hrest, if_true, List.flatMap_cons, List.count_append]
      omega
    · have ho' : old ∈ rest := (List.mem_cons.1 ho).resolve_left (fun h => hr (h ▸ rfl))
      have := ih hu.2 ho'
      simp only [placesOf, List.map_cons, if_neg hr, List.flatMap_cons, List.count_append] at this ⊢
      omega

theorem count_le_placesOf {l : List Record} {r : Record} (h : r ∈ l) (p : Nat) :
    (referencesOf r).count p ≤ (placesOf l).count p := by
  induction l with
  | nil => cases h
  | cons q rest ih =>
    simp only [placesOf, List.flatMap_cons, List.count_append] at ih ⊢
    rcases List.mem_cons.1 h with rfl | h
    · omega
    · have := ih h
      omega

/-! ### The table invariant by its parts -/

theorem mem_placesOf {l : List Record} {p : Nat} : p ∈ placesOf l ↔ ∃ r ∈ l, p ∈ referencesOf r := by
  simp [placesOf]

/-- References of records in range are places of the directory. -/
theorem placesOf_lt {l : List Record} (h : ∀ r ∈ l, RecordOK r) : ∀ p ∈ placesOf l, p < 1024 := by
  intro p hp
  obtain ⟨r, hr, hpr⟩ := mem_placesOf.1 hp
  obtain ⟨-, -, -, -, -, hplaces, -, -⟩ := h r hr
  have := hplaces p hpr
  omega

/-- The invariant reads the slots, the order, the filter and the counts alone. -/
theorem TableInv.congr {s t : State} (h : TableInv s) (hsl : t.table.slots = s.table.slots)
    (ho : t.table.order = s.table.order) (hf : t.settings.filter = s.settings.filter) (hc : t.dir.counts = s.dir.counts) :
    TableInv t := by
  unfold TableInv State.references State.records at *
  rw [hsl, ho, hf, hc]
  exact h

/-- Records changed in their slots, keeping key, references and ranges. -/
theorem TableInv.mapRecords {s t : State} (h : TableInv s) (g : Record → Record) (hk : ∀ r, (g r).key = r.key)
    (hr : ∀ r, referencesOf (g r) = referencesOf r) (hok : ∀ r ∈ s.records, RecordOK r → RecordOK (g r))
    (hsl : t.table.slots = Sys2Proof.Machine.mapRecords g s.table.slots)
    (ho : t.table.order = runningOrder t.settings.filter t.table.slots) (hc : t.dir.counts = s.dir.counts) :
    TableInv t := by
  obtain ⟨hlen, hnodup, hrec, -, hcan, hcount⟩ := h
  have hrecs : t.records = s.records.map g := by
    unfold State.records; rw [hsl, recordsOf_mapRecords]
  have hplaces : ∀ l : List Record, placesOf (l.map g) = placesOf l := by
    intro l
    simp [placesOf, List.flatMap_map, hr]
  refine ⟨by rw [hsl]; simpa [Sys2Proof.Machine.mapRecords] using hlen, ?_, ?_, ho, hc ▸ hcan, fun p hp => ?_⟩
  · rw [hrecs, List.map_map, show Record.key ∘ g = Record.key from funext hk]
    exact hnodup
  · rw [hrecs]
    rintro r' hr'
    obtain ⟨r, hr, rfl⟩ := List.mem_map.1 hr'
    exact hok r hr (hrec r hr)
  · rw [hc, hcount p hp, references_eq, references_eq, hrecs, hplaces]

/-! ### The table's operations -/

/-- A table without records, with nothing counted. -/
theorem tableInv_empty {t : State} (hsl : t.table.slots = List.replicate 96 none) (ho : t.table.order = [])
    (hc : t.dir.counts = []) : TableInv t := by
  have hrecs : t.records = [] := by unfold State.records; rw [hsl, recordsOf_replicate_none]
  refine ⟨by simp [hsl], by simp [hrecs], by simp [hrecs], ?_, by simp [hc, cellsFrom], fun p _ => ?_⟩
  · rw [ho, hsl, runningOrder, recordsOf_replicate_none]; rfl
  · rw [hc, references_eq, hrecs]; rfl

theorem sweep_tableInv {s : State} (h : TableInv s) : TableInv (sweep s) := by
  obtain ⟨hlen, hnodup, hrec, -, hcan, hcount⟩ := h
  have hrecs : (sweep s).records = s.records.filter Record.isLive := recordsOf_keepLive s.table.slots
  have hgone : ∀ p ∈ placesOf (s.records.filter (fun r => !r.isLive)), p < 1024 :=
    placesOf_lt fun r hr => hrec r (List.mem_of_mem_filter hr)
  refine ⟨?_, ?_, ?_, rfl, countDown_canonical hcan hgone, fun p hp => ?_⟩
  · rw [sweep_table]; simpa [keepLive] using hlen
  · rw [hrecs]
    exact hnodup.sublist (List.filter_sublist.map _)
  · rw [hrecs]
    exact fun r hr => hrec r (List.mem_of_mem_filter hr)
  · have hsplit := placesOf_filter Record.isLive s.records p
    have hdown := cellGet_countDown hcan hgone p
    rw [references_eq, hrecs]
    rw [hcount p hp, references_eq] at hdown
    refine hdown.trans ?_
    omega

/-- A new record in range, under a key no record has, in a free slot. -/
theorem createRecord_tableInv {s : State} {new : Record} {slots : List (Option Record)} (h : TableInv s)
    (hok : RecordOK new) (hkey : findRecord new.key s.table.slots = none)
    (hins : insertRecord new s.table.slots = some slots) : TableInv (createRecord new slots s) := by
  obtain ⟨hlen, hnodup, hrec, -, hcan, hcount⟩ := h
  obtain ⟨i, hi, rfl⟩ := insertRecord_some hins
  have hperm : (createRecord new (s.table.slots.set i (some new)) s).records.Perm (new :: s.records) :=
    recordsOf_set new hi
  have hplaces : ∀ p ∈ referencesOf new, p < 1024 := by
    obtain ⟨-, -, -, -, -, hp, -, -⟩ := hok
    exact fun p hm => Nat.lt_succ_of_le (hp p hm)
  refine ⟨by simpa [createRecord] using hlen, ?_, ?_, rfl, countUp_canonical hcan hplaces, fun p hp => ?_⟩
  · refine (hperm.map Record.key).nodup_iff.2 (List.nodup_cons.2 ⟨fun hm => ?_, hnodup⟩)
    obtain ⟨r, hr, hk⟩ := List.mem_map.1 hm
    exact findRecord_none hkey r (mem_recordsOf.1 hr) hk
  · intro r hr
    rcases List.mem_cons.1 (hperm.mem_iff.1 hr) with rfl | hr
    · exact hok
    · exact hrec r hr
  · have hup := cellGet_countUp hcan hplaces p
    rw [hcount p hp, references_eq] at hup
    have hcountp := (List.Perm.flatMap_right referencesOf hperm).count_eq p
    rw [references_eq, placesOf, hcountp]
    refine hup.trans ?_
    simp [placesOf, List.count_append]
    omega

/-- A record replaced by one in range under the same key. -/
theorem replaceRecord_tableInv {s : State} {old new : Record} (h : TableInv s) (hold : old ∈ s.records)
    (hok : RecordOK new) (hkey : new.key = old.key) : TableInv (replaceRecord old new s) := by
  obtain ⟨hlen, hnodup, hrec, -, hcan, hcount⟩ := h
  have hrecs : (replaceRecord old new s).records = s.records.map (fun r => if r.key = old.key then new else r) :=
    recordsOf_mapRecords _ _
  have hnew : ∀ p ∈ referencesOf new, p < 1024 := by
    obtain ⟨-, -, -, -, -, hp, -, -⟩ := hok
    exact fun p hm => Nat.lt_succ_of_le (hp p hm)
  have holdp : ∀ p ∈ referencesOf old, p < 1024 := by
    obtain ⟨-, -, -, -, -, hp, -, -⟩ := hrec old hold
    exact fun p hm => Nat.lt_succ_of_le (hp p hm)
  have hdown := countDown_canonical hcan holdp
  refine ⟨by simpa [replaceRecord, mapRecord] using hlen, ?_, ?_, rfl, countUp_canonical hdown hnew, fun p hp => ?_⟩
  · rw [hrecs, List.map_map]
    have hfun : (Record.key ∘ fun r => if r.key = old.key then new else r) = Record.key := by
      funext r
      by_cases hr : r.key = old.key <;> simp [hr, hkey]
    rw [hfun]
    exact hnodup
  · rw [hrecs]
    intro r' hr'
    obtain ⟨r, hr, rfl⟩ := List.mem_map.1 hr'
    by_cases hk : r.key = old.key
    · simpa [hk] using hok
    · simpa [hk] using hrec r hr
  · have hex := placesOf_replace new hnodup hold p
    have hle := count_le_placesOf hold p
    have hval := cellGet_countUp hdown hnew p
    rw [cellGet_countDown hcan holdp p, hcount p hp, references_eq] at hval
    rw [references_eq, hrecs]
    refine hval.trans ?_
    omega

/-! ### Records in range -/

theorem clampDelay_range (d : Int) : -30 ≤ clampDelay d ∧ clampDelay d ≤ 999 := by
  unfold clampDelay; omega

/-- A POST SERVICE that passes its field checks gives a record in range. -/
theorem postRecord_ok {f : PostFields} (h : postFieldsOK f = true) : RecordOK (postRecord f) := by
  simp only [postFieldsOK, keyOK, Bool.and_eq_true, decide_eq_true_eq, List.all_eq_true, Bool.not_eq_true',
    Bool.and_eq_false_iff, decide_eq_false_iff_not] at h
  obtain ⟨⟨⟨⟨⟨⟨⟨⟨hkey, hs0⟩, hs1⟩, hstate⟩, hplat⟩, hplaces⟩, hstops⟩, htrain⟩, hest⟩ := h
  have hdelay : ∀ d ∈ (postRecord f).delay, -30 ≤ d ∧ d ≤ 999 := by
    intro d hd
    have : d ∈ f.delay.map clampDelay := by
      unfold postRecord at hd
      dsimp only at hd
      split at hd <;> simp_all
    obtain ⟨x, -, rfl⟩ := Option.mem_map.1 this
    exact clampDelay_range x
  refine ⟨⟨hkey.1, Nat.le_of_lt_succ hkey.2⟩, ⟨by simp only [postRecord]; omega, hs1⟩, hdelay, ?_, hplat, ?_, hstops, ?_⟩
  · obtain ⟨st, hst⟩ := Option.isSome_iff_exists.1 hstate
    cases st <;> simp_all [DelayFits, postRecord, ← Option.isSome_iff_ne_none]
  · exact fun p hp => Nat.le_of_lt_succ (hplaces p hp)
  · intro n hn
    have hn : f.train = some n := hn
    simpa [hn] using htrain

theorem amendStops_places (skip restore : List Nat) (stops : List Stop) :
    (amendStops skip restore stops).map Stop.place = stops.map Stop.place := by
  refine List.ext_getElem (by simp [amendStops]) fun i h1 h2 => ?_
  simp only [amendStops, List.getElem_map, List.getElem_mapIdx]
  split_ifs <;> rfl

/-- An amendment names no other place (R17). -/
theorem referencesOf_amendRecord (f : AmendFields) (r : Record) : referencesOf (amendRecord f r) = referencesOf r := by
  simp [referencesOf, namedPlaces, amendRecord, amendStops_places]

/-- The delay an amendment leaves fits the running state it leaves (R2, R16, R17). -/
theorem amendState_fits {r : Record} {state : Option RunState} {delay : Option Int} (hr : DelayFits r)
    (hc : ¬ (state = some .estimated ∧ delay = none ∧ r.delay = none)) {run : RunState × Option Int}
    (h : amendState r state delay = run) :
    (run.1 = .scheduled → run.2 = none) ∧ (run.1 = .unknownDelay → run.2 = none) ∧ (run.1 = .estimated → run.2 ≠ none) := by
  subst h
  obtain ⟨h1, h2, h3⟩ := hr
  rcases state with _ | st
  · cases delay with
    | none => exact ⟨h1, h2, h3⟩
    | some d => by_cases hx : r.state = .cancelled <;> simp [amendState, hx]
  · cases st <;> cases delay <;> simp_all [amendState]

theorem amendState_delay {r : Record} {state : Option RunState} {delay : Option Int} {d : Int}
    (h : d ∈ (amendState r state delay).2) : d ∈ delay ∨ d ∈ r.delay := by
  rcases state with _ | st
  · cases delay <;> simp_all [amendState]
  · cases st <;> cases delay <;> simp_all [amendState]

/-- An amendment that passes its checks leaves a record in range. -/
theorem amendRecord_ok {f : AmendFields} {r : Record} (hf : amendFieldsOK f = true) (hc : amendContentOK f r = true)
    (hr : RecordOK r) : RecordOK (amendRecord f r) := by
  obtain ⟨hkey, hsch, hdelay, hfits, hplat, hplaces, hstops, htrain⟩ := hr
  simp only [amendFieldsOK, Bool.and_eq_true] at hf
  obtain ⟨⟨⟨⟨⟨⟨-, -⟩, hfplat⟩, hftrain⟩, -⟩, -⟩, -⟩ := hf
  simp only [amendContentOK, Bool.and_eq_true, Bool.not_eq_true', Bool.and_eq_false_iff, decide_eq_false_iff_not] at hc
  refine ⟨hkey, hsch, fun d hd => ?_, amendState_fits hfits ?_ rfl, ?_, ?_, ?_, fun n hn => ?_⟩
  · rcases amendState_delay hd with h | h
    · obtain ⟨x, -, rfl⟩ := Option.mem_map.1 h
      exact clampDelay_range x
    · exact hdelay d h
  · rintro ⟨h1, h2, h3⟩
    rcases hc.2 with (h | h) | h <;> simp_all
  · cases hp : f.platform with
    | none => simpa [amendRecord, hp] using hplat
    | some t => simpa [amendRecord, hp] using (by simpa [hp] using hfplat : platformOK t = true)
  · rw [referencesOf_amendRecord]
    exact hplaces
  · simpa [amendRecord, amendStops] using hstops
  · rcases ht : f.train with _ | _ | m
    · exact htrain n (by simpa [amendRecord, ht] using hn)
    · simp [amendRecord, ht] at hn
    · have : n = m + 1 := by simpa [amendRecord, ht, eq_comm] using hn
      simp [ht] at hftrain
      omega

theorem leave_ok {r : Record} (cause : LeaveCause) (h : RecordOK r) : RecordOK (r.leave cause) := h

/-- The rollover keeps a record in range (R42). -/
theorem rollRecord_ok {r : Record} (h : RecordOK r) : RecordOK (rollRecord r) := by
  unfold rollRecord
  split_ifs with h0
  · obtain ⟨hkey, hsch, hrest⟩ := h
    exact ⟨hkey, ⟨by dsimp only; omega, by dsimp only; omega⟩, hrest⟩
  · exact leave_ok _ h
  · exact h

theorem rollRecord_key (r : Record) : (rollRecord r).key = r.key := by
  unfold rollRecord; split_ifs <;> rfl

theorem rollRecord_references (r : Record) : referencesOf (rollRecord r) = referencesOf r := by
  unfold rollRecord; split_ifs <;> rfl

/-! ### The events of the table -/

theorem touchWindow_tableInv {s : State} (h : TableInv s) : TableInv (touchWindow s) :=
  h.congr (by simp) (by simp) (by simp) (by simp)

/-- A choice between two states that keep the invariant. -/
theorem tableInv_ite {p : Prop} [Decidable p] {t u : State} (ht : TableInv t) (hu : TableInv u) :
    TableInv (if p then t else u) := by
  split
  · exact ht
  · exact hu

theorem Beside.tableInv {s t : State} (hb : Beside s t) (h : TableInv s) : TableInv t := by
  obtain ⟨-, -, hset, htab, hdir⟩ := hb
  exact h.congr (by rw [htab]) (by rw [htab]) (by rw [hset]) (by rw [hdir])

theorem answer_tableInv {kind : Byte} {hd : Header} {o d : Nat} {s : State} (h : TableInv s) :
    TableInv (answer kind hd o d s) := (answer_beside _ _ _ _ _).tableInv h

theorem mapRecord_tableInv {s : State} (h : TableInv s) (key : Nat) (g : Record → Record) (hk : ∀ r, (g r).key = r.key)
    (hr : ∀ r, referencesOf (g r) = referencesOf r) (hok : ∀ r ∈ s.records, r.key = key → RecordOK r → RecordOK (g r)) :
    TableInv (retable (mapRecord key g s.table.slots) s) := by
  refine h.mapRecords (fun r => if r.key = key then g r else r) (fun r => ?_) (fun r => ?_) (fun r hm hro => ?_) rfl rfl rfl
  · split_ifs
    · exact hk r
    · rfl
  · split_ifs
    · exact hr r
    · rfl
  · split_ifs with hkey
    · exact hok r hm hkey hro
    · exact hro

theorem sweepAtZero_tableInv {s : State} (left : Bool) (h : TableInv s) : TableInv (sweepAtZero left s) :=
  tableInv_ite (sweep_tableInv h) h

theorem postCreate_tableInv {hd : Header} {f : PostFields} {s : State} (h : TableInv s) (hf : postFieldsOK f = true)
    (hn : findRecord f.key s.table.slots = none) : TableInv (postCreate hd f s) := by
  have hok := postRecord_ok hf
  unfold postCreate
  dsimp only
  split
  · next slots hins => exact answer_tableInv (createRecord_tableInv h hok hn hins)
  · split
    · exact answer_tableInv h
    · have hsw := sweep_tableInv h
      split
      · next slots hins =>
        refine answer_tableInv (createRecord_tableInv hsw hok ?_ hins)
        have hsub : ∀ r ∈ recordsOf (keepLive s.table.slots), (r.key == f.key) = false := by
          intro r hr
          rw [recordsOf_keepLive] at hr
          simpa using findRecord_none hn r (mem_recordsOf.1 (List.mem_of_mem_filter hr))
        exact List.find?_eq_none.2 fun r hr hk => Bool.false_ne_true ((hsub r hr).symm.trans hk)
      · exact answer_tableInv hsw

theorem acceptPost_tableInv {hd : Header} {f : PostFields} {s : State} (h : TableInv s) :
    TableInv (acceptPost hd f s) := by
  unfold acceptPost
  split
  · next hf =>
    dsimp only
    split
    · next hn =>
      split
      · exact answer_tableInv h
      · exact postCreate_tableInv h hf hn
    · next old hold =>
      obtain ⟨hmem, hkey⟩ := findRecord_some hold
      split
      · exact answer_tableInv h
      · exact answer_tableInv h
      · split
        · exact answer_tableInv h
        · exact answer_tableInv (replaceRecord_tableInv h (mem_recordsOf.2 hmem) (postRecord_ok hf) hkey.symm)
  · exact answer_tableInv h

/-- With unique keys the record found is the only one under its key. -/
theorem eq_of_findRecord {s : State} {key : Nat} {r q : Record} (h : TableInv s)
    (hf : findRecord key s.table.slots = some r) (hq : q ∈ s.records) (hk : q.key = key) : q = r := by
  obtain ⟨-, hnodup, -⟩ := h
  obtain ⟨hr, hrk⟩ := findRecord_some hf
  exact List.inj_on_of_nodup_map hnodup hq (mem_recordsOf.2 hr) (hk.trans hrk.symm)

theorem acceptAmend_tableInv {hd : Header} {f : AmendFields} {s : State} (h : TableInv s) :
    TableInv (acceptAmend hd f s) := by
  unfold acceptAmend
  split
  · next hf =>
    split
    · exact answer_tableInv h
    · next r hr =>
      split
      · exact answer_tableInv h
      · split
        · exact answer_tableInv h
        · exact answer_tableInv h
        · split
          · next hc =>
            refine answer_tableInv (mapRecord_tableInv h _ _ (fun _ => rfl) (referencesOf_amendRecord f) fun q hq hk hok => ?_)
            exact amendRecord_ok hf (eq_of_findRecord h hr hq hk ▸ hc) hok
          · exact answer_tableInv h
  · exact answer_tableInv h

theorem retireRecord_tableInv {key : Nat} {s : State} (h : TableInv s) : TableInv (retireRecord key s) :=
  sweepAtZero_tableInv true (mapRecord_tableInv (touchWindow_tableInv h) key (Record.leave .retired) (fun _ => rfl)
    (fun _ => rfl) fun _ _ _ hok => leave_ok _ hok)

theorem acceptRetire_tableInv {hd : Header} {key : Nat} {s : State} (h : TableInv s) :
    TableInv (acceptRetire hd key s) := by
  unfold acceptRetire
  split
  · split
    · exact answer_tableInv h
    · exact answer_tableInv (tableInv_ite (retireRecord_tableInv h) h)
  · exact answer_tableInv h

/-- What CLEAR BOARD leaves (R20). -/
theorem acceptClear_table (hd : Header) (s : State) : (acceptClear hd s).table =
    { slots := List.replicate s.table.slots.length none, order := [], window := .closed } := by
  unfold acceptClear
  simp only [answer_table, retable_table, State.withTable_table, recount_table, List.map_const', runningOrder,
    recordsOf_replicate_none]
  rfl

theorem acceptClear_counts (hd : Header) (s : State) : (acceptClear hd s).dir = { s.dir with counts := [] } := by
  simp [acceptClear]

theorem acceptClear_tableInv {hd : Header} {s : State} (h : TableInv s) : TableInv (acceptClear hd s) := by
  obtain ⟨hlen, -⟩ := h
  exact tableInv_empty (by rw [acceptClear_table, hlen]) (by rw [acceptClear_table]) (by rw [acceptClear_counts])

theorem windowExpiry_tableInv {s : State} (h : TableInv s) : TableInv (windowExpiry s) := by
  unfold windowExpiry
  split
  · exact h
  · exact sweep_tableInv h

/-- Whether the rollover makes a record LEAVING (R42). -/
def someRollOff (slots : List (Option Record)) : Bool :=
  (recordsOf slots).any (fun r => r.isLive && decide (r.scheduled < 0))

/-- Whether the ageing makes a record LEAVING (R44). -/
def someTimeOut (set : Settings) (now : Nat) (slots : List (Option Record)) : Bool :=
  (recordsOf slots).any (timedOut set now)

/-- What the ageing makes of a record (R44, R45). -/
def ageRecord (set : Settings) (now : Nat) (r : Record) : Record :=
  if timedOut set now r then r.leave .timedOut else r

/-- The window before a pass over the records: touched when the pass makes one LEAVING (R55, R56). -/
def touchIf (left : Bool) (s : State) : State :=
  if left then touchWindow s else s

/-- The rollover: the window touched when it rolls a record off, and every record rolled over (R42). -/
theorem rollover_eq (s : State) : rollover s =
    (retable (mapRecords rollRecord s.table.slots) (touchIf (someRollOff s.table.slots) s), someRollOff s.table.slots) := by
  unfold rollover touchIf someRollOff
  dsimp only
  split <;> simp

/-- The ageing: the window touched when it times a record out, and every record aged (R44). -/
theorem ageTable_eq (s : State) : ageTable s =
    (retable (mapRecords (ageRecord s.settings s.time.now) s.table.slots)
      (touchIf (someTimeOut s.settings s.time.now s.table.slots) s), someTimeOut s.settings s.time.now s.table.slots) := by
  unfold ageTable touchIf someTimeOut ageRecord
  dsimp only
  split <;> simp

theorem touchIf_tableInv {s : State} (left : Bool) (h : TableInv s) : TableInv (touchIf left s) :=
  tableInv_ite (touchWindow_tableInv h) h

theorem touchIf_slots (left : Bool) (s : State) : (touchIf left s).table.slots = s.table.slots := by
  unfold touchIf; split <;> simp

theorem rollover_tableInv {s : State} (h : TableInv s) : TableInv (rollover s).1 := by
  rw [rollover_eq]
  exact (touchIf_tableInv _ h).mapRecords rollRecord rollRecord_key rollRecord_references (fun _ _ => rollRecord_ok)
    (by rw [touchIf_slots]; rfl) rfl rfl

theorem ageRecord_ok {set : Settings} {now : Nat} {r : Record} (h : RecordOK r) : RecordOK (ageRecord set now r) := by
  unfold ageRecord; split
  · exact leave_ok _ h
  · exact h

theorem ageTable_tableInv {s : State} (h : TableInv s) : TableInv (ageTable s).1 := by
  rw [ageTable_eq]
  refine (touchIf_tableInv _ h).mapRecords (ageRecord s.settings s.time.now) (fun r => ?_) (fun r => ?_)
    (fun _ _ => ageRecord_ok) (by rw [touchIf_slots]; rfl) rfl rfl
  · unfold ageRecord; split <;> rfl
  · unfold ageRecord; split <;> rfl

theorem passOrigin_tableInv {s : State} (p : OriginPassage) (h : TableInv s) : TableInv (passOrigin p s).1 := by
  cases p with
  | no => exact h
  | backward => exact (withTime_beside _ _).tableInv h
  | forward =>
    unfold passOrigin
    dsimp only
    split
    · exact (withTime_beside _ _).tableInv h
    · exact rollover_tableInv h

theorem timeStages_tableInv {s : State} (p : OriginPassage) (h : TableInv s) : TableInv (timeStages p s) :=
  (repaintRequests_beside _).tableInv (sweepAtZero_tableInv _
    (ageTable_tableInv ((recomputeNow_beside _).tableInv (passOrigin_tableInv p h))))

theorem TableEvent.tableInv {s t : State} (he : TableEvent s t) (h : TableInv s) : TableInv t := by
  cases he with
  | post hd f => exact acceptPost_tableInv h
  | amend hd f => exact acceptAmend_tableInv h
  | retire hd key => exact acceptRetire_tableInv h
  | clear hd => exact acceptClear_tableInv h
  | expiry => exact windowExpiry_tableInv h
  | stages p => exact timeStages_tableInv p h

/-! ### The events of the directory leave the table -/

/-- The phase, elapsed time, settings, Service Table and reference counts stand. -/
def LeavesTable (s t : State) : Prop :=
  t.phase = s.phase ∧ t.elapsed = s.elapsed ∧ t.settings = s.settings ∧ t.table = s.table ∧ t.dir.counts = s.dir.counts

theorem LeavesTable.trans {s t u : State} (h : LeavesTable s t) (g : LeavesTable t u) : LeavesTable s u := by
  obtain ⟨h1, h2, h3, h4, h5⟩ := h
  obtain ⟨g1, g2, g3, g4, g5⟩ := g
  exact ⟨g1.trans h1, g2.trans h2, g3.trans h3, g4.trans h4, g5.trans h5⟩

theorem LeavesTable.refl (s : State) : LeavesTable s s := ⟨rfl, rfl, rfl, rfl, rfl⟩

theorem Beside.leavesTable {s t : State} (h : Beside s t) : LeavesTable s t := by
  obtain ⟨h1, h2, h3, h4, h5⟩ := h
  exact ⟨h1, h2, h3, h4, by rw [h5]⟩

theorem leavesTable_ite {p : Prop} [Decidable p] {s t u : State} (ht : LeavesTable s t) (hu : LeavesTable s u) :
    LeavesTable s (if p then t else u) := by
  split
  · exact ht
  · exact hu

theorem withDir_leavesTable (s : State) (d : Directory) (h : d.counts = s.dir.counts) : LeavesTable s (s.withDir d) :=
  ⟨rfl, rfl, rfl, rfl, h⟩

/-- An answer after a change of the directory. -/
theorem LeavesTable.answer {s t : State} (h : LeavesTable s t) (kind : Byte) (hd : Header) (o d : Nat) :
    LeavesTable s (Sys2Proof.Machine.answer kind hd o d t) := h.trans (answer_beside _ _ _ _ _).leavesTable

theorem LeavesTable.answerAll {s t : State} (h : LeavesTable s t) (kind : Byte) (hs : List Header) (o d : Nat) :
    LeavesTable s (Sys2Proof.Machine.answerAll kind hs o d t) := h.trans (answerAll_beside _ _ _ _ _).leavesTable

theorem settle_leavesTable (s : State) : LeavesTable s (settle s) := by simp [LeavesTable]

theorem abandonGather_leavesTable (s : State) : LeavesTable s (abandonGather s) := by
  unfold abandonGather
  split
  · exact (withDir_leavesTable _ _ (by rfl)).answerAll _ _ _ _
  · exact .refl s

theorem tryWrite_leavesTable (h : Header) (f : WriteFields) (op : DirOp) (s : State) :
    LeavesTable s (tryWrite h f op s) :=
  leavesTable_ite (answer_beside _ _ _ _ _).leavesTable
    (leavesTable_ite (answer_beside _ _ _ _ _).leavesTable (withDir_leavesTable _ _ (by rfl)))

theorem acceptWrite_leavesTable (h : Header) (f : WriteFields) (s : State) : LeavesTable s (acceptWrite h f s) := by
  have busy (o d : Nat) : LeavesTable s (answer kindWrite h o d s) := (answer_beside _ _ _ _ _).leavesTable
  unfold acceptWrite
  split
  · dsimp only
    split
    · exact tryWrite_leavesTable _ _ _ _
    · exact (abandonGather_leavesTable s).trans (tryWrite_leavesTable _ _ _ _)
    · exact leavesTable_ite (busy _ _) (tryWrite_leavesTable _ _ _ _)
    all_goals exact busy _ _
  · exact busy _ _

theorem deferredResume_leavesTable (s : State) : LeavesTable s (deferredResume s) := by
  unfold deferredResume
  split
  · exact leavesTable_ite (.refl s) (withDir_leavesTable _ _ (by rfl))
  · exact .refl s

theorem endWrite_leavesTable (verified : Bool) (w : WriteRun) (op : DirOp) (s : State) :
    LeavesTable s (endWrite verified w op s) := by
  unfold endWrite
  exact LeavesTable.answer (withDir_leavesTable _ _ (by rfl)) _ _ _ _

theorem completeWrite_leavesTable (verified : Bool) (s : State) : LeavesTable s (completeWrite verified s) := by
  unfold completeWrite
  split
  · exact endWrite_leavesTable _ _ _ _
  · exact (endWrite_leavesTable _ _ _ _).trans (deferredResume_leavesTable _)
  · exact .refl s

theorem tryErase_leavesTable (h : Header) (sector : Nat) (e : EraseJob) (window : Nat) (s : State) :
    LeavesTable s (tryErase h sector e window s) := by
  have busy (o d : Nat) : LeavesTable s (answer kindErase h o d s) := (answer_beside _ _ _ _ _).leavesTable
  refine leavesTable_ite (busy _ _) ?_
  split
  · exact busy _ _
  · exact leavesTable_ite (busy _ _) (leavesTable_ite (withDir_leavesTable _ _ (by rfl)) (withDir_leavesTable _ _ (by rfl)))

theorem acceptErase_leavesTable (h : Header) (sector : Nat) (s : State) : LeavesTable s (acceptErase h sector s) := by
  unfold acceptErase
  split
  · split
    · exact tryErase_leavesTable _ _ _ _ _
    · exact tryErase_leavesTable _ _ _ _ _
    all_goals exact (answer_beside _ _ _ _ _).leavesTable
  · exact (answer_beside _ _ _ _ _).leavesTable

theorem enterErasing_leavesTable (e : EraseJob) (c : Current) (s : State) : LeavesTable s (enterErasing e c s) :=
  leavesTable_ite (withDir_leavesTable _ _ (by rfl)) (withDir_leavesTable _ _ (by rfl))

theorem gatherExpiry_leavesTable (s : State) : LeavesTable s (gatherExpiry s) := by
  unfold gatherExpiry
  split
  · exact enterErasing_leavesTable _ _ _
  · exact .refl s

theorem sectorDone_leavesTable (s : State) : LeavesTable s (sectorDone s) := by
  unfold sectorDone
  split
  · exact leavesTable_ite ((withDir_leavesTable _ _ (by rfl)).answerAll _ _ _ _) (withDir_leavesTable _ _ (by rfl))
  · refine leavesTable_ite (leavesTable_ite ?_ (withDir_leavesTable _ _ (by rfl))) (.refl s)
    exact ((withDir_leavesTable _ _ (by rfl)).answerAll _ _ _ _).answerAll _ _ _ _
  · exact .refl s

theorem acceptSuspend_leavesTable (h : Header) (s : State) : LeavesTable s (acceptSuspend h s) := by
  unfold acceptSuspend
  split
  · exact withDir_leavesTable _ _ (by rfl)
  · exact withDir_leavesTable _ _ (by rfl)
  · exact LeavesTable.answer (withDir_leavesTable _ _ (by rfl)) _ _ _ _
  · exact LeavesTable.answer (withDir_leavesTable _ _ (by rfl)) _ _ _ _
  · exact LeavesTable.answer (withDir_leavesTable _ _ (by rfl)) _ _ _ _
  all_goals exact (answer_beside _ _ _ _ _).leavesTable

theorem suspensionDone_leavesTable (s : State) : LeavesTable s (suspensionDone s) := by
  unfold suspensionDone
  split
  · exact (LeavesTable.answerAll (withDir_leavesTable _ _ (by rfl)) _ _ _ _).trans (deferredResume_leavesTable _)
  · exact .refl s

theorem acceptResume_leavesTable (h : Header) (s : State) : LeavesTable s (acceptResume h s) := by
  unfold acceptResume
  split
  · exact (enterErasing_leavesTable _ _ _).answer _ _ _ _
  all_goals exact (answer_beside _ _ _ _ _).leavesTable

theorem tryLock_leavesTable (kind : Byte) (h : Header) (target : List Nat) (s : State) :
    LeavesTable s (tryLock kind h target s) := by
  unfold tryLock
  split
  · exact withDir_leavesTable _ _ (by rfl)
  · exact (abandonGather_leavesTable s).trans (withDir_leavesTable _ _ (by rfl))
  all_goals exact (answer_beside _ _ _ _ _).leavesTable

theorem lockDone_leavesTable (s : State) : LeavesTable s (lockDone s) := by
  unfold lockDone
  split
  · exact LeavesTable.answer (withDir_leavesTable _ _ (by rfl)) _ _ _ _
  · exact .refl s

theorem scanDone_leavesTable (s : State) : LeavesTable s (scanDone s) := by
  unfold scanDone
  split
  · exact (withDir_leavesTable _ _ (by rfl)).trans (beside_ite (withFeed_beside _ _) (.refl _)).leavesTable
  · exact .refl s

theorem DirectoryEvent.leavesTable {s t : State} (he : DirectoryEvent s t) : LeavesTable s t := by
  cases he with
  | write h f => exact acceptWrite_leavesTable h f s
  | written v => exact completeWrite_leavesTable v s
  | erase h sector => exact acceptErase_leavesTable h sector s
  | gathered => exact gatherExpiry_leavesTable s
  | erased => exact sectorDone_leavesTable s
  | suspend h => exact acceptSuspend_leavesTable h s
  | suspended => exact suspensionDone_leavesTable s
  | resume h => exact acceptResume_leavesTable h s
  | lock h sectors =>
    exact leavesTable_ite (answer_beside _ _ _ _ _).leavesTable (tryLock_leavesTable _ _ _ _)
  | free h sectors =>
    exact leavesTable_ite (answer_beside _ _ _ _ _).leavesTable
      (leavesTable_ite (tryLock_leavesTable _ _ _ _) (answer_beside _ _ _ _ _).leavesTable)
  | locked => exact lockDone_leavesTable s
  | scanned => exact scanDone_leavesTable s

theorem LeavesTable.tableInv {s t : State} (hl : LeavesTable s t) (h : TableInv s) : TableInv t := by
  obtain ⟨-, -, hset, htab, hc⟩ := hl
  exact h.congr (by rw [htab]) (by rw [htab]) (by rw [hset]) hc

/-! ### SET BOARD, RESTART and the resets -/

theorem directoryRaise_leavesTable (s : State) : LeavesTable s (directoryRaise s) := by
  unfold directoryRaise
  split
  · exact leavesTable_ite (withDir_leavesTable _ _ (by rfl)) (.refl s)
  · exact .refl s

theorem directoryWithdraw_leavesTable (s : State) : LeavesTable s (directoryWithdraw s) := by
  unfold directoryWithdraw
  split
  · exact withDir_leavesTable _ _ (by rfl)
  · exact .refl s

theorem applyAutoSuspend_leavesTable (s : State) : LeavesTable s (applyAutoSuspend s) :=
  leavesTable_ite (leavesTable_ite (directoryRaise_leavesTable s) (.refl s)) (directoryWithdraw_leavesTable s)

theorem applyOrigin_beside (s : State) : Beside s (applyOrigin s) := (withTime_beside _ _).trans (recomputeNow_beside _)

/-- The settings and the order they give, before the other blocks are handed their own. -/
def withFilterApplied (new : Settings) (s : State) : State :=
  if new.filter ≠ s.settings.filter then applyFilter (s.withSettings new) else s.withSettings new

theorem applySettings_leavesTable (new : Settings) (s : State) :
    LeavesTable (withFilterApplied new s) (applySettings new s) := by
  unfold applySettings
  dsimp only
  refine LeavesTable.trans ?_ (leavesTable_ite (Beside.leavesTable ⟨rfl, rfl, rfl, rfl, rfl⟩) (.refl _))
  refine LeavesTable.trans ?_ (leavesTable_ite (applyAutoSuspend_leavesTable _) (.refl _))
  refine LeavesTable.trans ?_ (leavesTable_ite (applyHoldover_beside _).leavesTable (.refl _))
  exact LeavesTable.trans (.refl _) (leavesTable_ite (applyOrigin_beside _).leavesTable (.refl _))

theorem withFilterApplied_tableInv {s : State} (new : Settings) (h : TableInv s) : TableInv (withFilterApplied new s) := by
  obtain ⟨hlen, hnodup, hrec, hord, hcounts⟩ := h
  unfold withFilterApplied
  split
  · exact ⟨hlen, hnodup, hrec, rfl, hcounts⟩
  · next hf =>
    refine ⟨hlen, hnodup, hrec, ?_, hcounts⟩
    have hf : new.filter = s.settings.filter := by simpa using hf
    simpa [hf] using hord

theorem acceptSetBoard_tableInv {hd : Header} {f : BoardFields} {s : State} (h : TableInv s) :
    TableInv (acceptSetBoard hd f s) :=
  tableInv_ite (answer_tableInv h) (tableInv_ite (answer_tableInv h)
    (answer_tableInv ((applySettings_leavesTable _ s).tableInv (withFilterApplied_tableInv _ h))))

/-- The Timekeeper under RESTART: no inconsistency counted, no rollover hold, "now" under the default origin, and LAPSED when the
timer stands at or above the default limit (R37, R50, R189; log entries 24 and 25). -/
def restartedTime (t : Timekeeper) : Timekeeper :=
  let t := { t with inconsistent := 0, rollHold := false, now := serviceMinute 180 t.minute }
  if t.freshness = .fresh ∧ 600000 ≤ t.freshTimer then { t with freshness := .lapsed, freshTimer := 600000 } else t

/-- The part under RESTART before the board state is derived anew (R189). -/
def restartedPart (s : State) : State :=
  { s with
    dir := directoryRestart (Config.lockCutTakesNew s.freeIndex) s.dir
    freeIndex := s.freeIndex + 1
    settings := Settings.default
    table := Table.reset
    unpacker := Unpacker.reset
    results := { s.results with queue := [], lost := false }
    feed := { s.feed with candidate := none, lossCount := 0 }
    paint := Paint.reset s.lines
    frame := { FrameStore.reset s.geometry with refreshTimer := s.frame.refreshTimer, panels := s.frame.panels }
    time := restartedTime s.time }

/-- What RESTART does, block by block (R189). -/
theorem acceptRestart_eq (s : State) : acceptRestart s = selectFirst (restartedPart s) := by
  have hlimit : 60000 * Settings.default.holdover = 600000 := rfl
  have horigin : Settings.default.origin = 180 := rfl
  simp only [acceptRestart, restartedPart, restartedTime, holdoverMs, recomputeNow, State.withDir, State.withFreeIndex,
    State.withSettings, State.withTable, State.withUnpacker, State.withResults, State.withFeed, State.withPaint,
    State.withFrame, State.withTime, State.lines, hlimit, horigin, Bool.false_eq_true, if_false]
  split_ifs <;> rfl

/-- What RESTART leaves of the table, the settings and the directory (R189). -/
theorem acceptRestart_blocks (s : State) :
    (acceptRestart s).phase = s.phase ∧ (acceptRestart s).elapsed = s.elapsed ∧
      (acceptRestart s).settings = Settings.default ∧ (acceptRestart s).table = Table.reset ∧
      (acceptRestart s).dir = directoryRestart (Config.lockCutTakesNew s.freeIndex) s.dir := by
  rw [acceptRestart_eq]
  exact applyBoard_beside _ (restartedPart s)

theorem acceptRestart_tableInv (s : State) : TableInv (acceptRestart s) := by
  obtain ⟨-, -, -, htab, hdir⟩ := acceptRestart_blocks s
  exact tableInv_empty (by rw [htab]; rfl) (by rw [htab]; rfl) (by rw [hdir]; rfl)

theorem hardReset_tableInv (s : State) : TableInv (hardReset s) := tableInv_empty rfl rfl rfl

/-- What a release leaves of the settings, the table and the directory, and the phase and elapsed time it starts (R190). -/
theorem releaseReset_blocks {s : State} (geo1 geo0 : Bool) (h : s.phase = .inReset) :
    (releaseReset geo1 geo0 s).phase = .running ∧ (releaseReset geo1 geo0 s).elapsed = 0 ∧
      (releaseReset geo1 geo0 s).settings = s.settings ∧ (releaseReset geo1 geo0 s).table = s.table ∧
      (releaseReset geo1 geo0 s).dir.counts = s.dir.counts := by
  unfold releaseReset selectFirst
  rw [h]
  dsimp only
  generalize hu : State.withKey _ _ = u
  have hu' : u.phase = .running ∧ u.elapsed = 0 ∧ u.settings = s.settings ∧ u.table = s.table ∧ u.dir = s.dir := by
    subst hu; exact ⟨rfl, rfl, rfl, rfl, rfl⟩
  obtain ⟨b1, b2, b3, b4, b5⟩ := applyBoard_beside (deriveBoard u.feed.station u.time.freshness u.time.valid) u
  obtain ⟨u1, u2, u3, u4, u5⟩ := hu'
  exact ⟨by rw [settle_phase, b1, u1], by rw [settle_elapsed, b2, u2], by rw [settle_settings, b3, u3],
    by rw [settle_table, b4, u4], by rw [settle_dir_counts, b5, u5]⟩

/-! ### Every step -/

theorem Change.tableInv {s t : State} (hc : Change s t) (h : TableInv s) : TableInv t := by
  cases hc with
  | beside hb => exact hb.tableInv h
  | settle => exact (settle_leavesTable s).tableInv h
  | table he => exact he.tableInv h
  | directory he => exact he.leavesTable.tableInv h
  | setBoard hd f => exact acceptSetBoard_tableInv h
  | restart => exact acceptRestart_tableInv s

theorem advanceTimers_tableInv {s : State} (h : TableInv s) : TableInv (advanceTimers s) := h.congr rfl rfl rfl rfl

theorem releaseReset_tableInv {s : State} (geo1 geo0 : Bool) (hp : s.phase = .inReset) (h : TableInv s) :
    TableInv (releaseReset geo1 geo0 s) := by
  obtain ⟨-, -, hset, htab, hc⟩ := releaseReset_blocks geo1 geo0 hp
  exact h.congr (by rw [htab]) (by rw [htab]) (by rw [hset]) hc

/-- Settles O5: every elementary change keeps the table invariant, and a step is a chain of them. -/
theorem serviceTableInvariantKept : Obligations.ServiceTableInvariantKept := by
  intro s t hs hstep
  exact step_keeps (fun _ _ hc => hc.tableInv) (fun _ => advanceTimers_tableInv) (fun s _ => hardReset_tableInv s)
    (fun geo1 geo0 _ hp => releaseReset_tableInv geo1 geo0 hp) hs hstep

end Sys2Proof.Machine

/-! SUPPORT and O6. The settings a SET BOARD leaves are in range, and every step keeps the sweep window within its cap. -/

namespace Sys2Proof.Machine

/-! ### The filter as a set of codes -/

theorem textBefore_trans {a b c : Text} (h1 : textBefore a b = true) (h2 : textBefore b c = true) :
    textBefore a c = true := by
  induction a generalizing b c with
  | nil =>
    cases b with
    | nil => exact h2
    | cons y b => cases c <;> simp_all [textBefore]
  | cons x a ih =>
    cases b with
    | nil => simp [textBefore] at h1
    | cons y b =>
      cases c with
      | nil => simp [textBefore] at h2
      | cons z c =>
        simp only [textBefore, Bool.or_eq_true, decide_eq_true_eq, Bool.and_eq_true, beq_iff_eq] at h1 h2 ⊢
        rcases h1 with h1 | ⟨rfl, h1⟩ <;> rcases h2 with h2 | ⟨rfl, h2⟩
        · exact .inl (by omega)
        · exact .inl h1
        · exact .inl h2
        · exact .inr ⟨rfl, ih h1 h2⟩

theorem textBefore_total {a b : Text} (h : textBefore a b = false) (hne : a ≠ b) : textBefore b a = true := by
  induction a generalizing b with
  | nil => cases b <;> simp_all [textBefore]
  | cons x a ih =>
    cases b with
    | nil => rfl
    | cons y b =>
      simp only [textBefore, Bool.or_eq_false_iff, decide_eq_false_iff_not, Bool.and_eq_false_iff, beq_eq_false_iff_ne] at h
      simp only [textBefore, Bool.or_eq_true, decide_eq_true_eq, Bool.and_eq_true, beq_iff_eq]
      by_cases hxy : x = y
      · subst hxy
        exact .inr ⟨rfl, ih (h.2.resolve_left (fun n => n rfl)) (fun e => hne (by rw [e]))⟩
      · have : x.toNat ≠ y.toNat := fun e => hxy (BitVec.eq_of_toNat_eq e)
        exact .inl (by omega)

theorem mem_filterInsert {t c : Text} {l : List Text} : c ∈ filterInsert t l ↔ c = t ∨ c ∈ l := by
  induction l with
  | nil => simp [filterInsert]
  | cons u r ih =>
    unfold filterInsert
    split_ifs with h1 h2
    · simp
    · subst h2; simp
    · simp [ih, or_left_comm]

theorem filterInsert_sorted {t : Text} {l : List Text} (h : l.Pairwise (fun a b => textBefore a b = true)) :
    (filterInsert t l).Pairwise (fun a b => textBefore a b = true) := by
  induction l with
  | nil => simp [filterInsert]
  | cons u r ih =>
    obtain ⟨hu, hr⟩ := List.pairwise_cons.1 h
    unfold filterInsert
    split_ifs with h1 h2
    · refine List.pairwise_cons.2 ⟨fun c hc => ?_, h⟩
      rcases List.mem_cons.1 hc with rfl | hc
      · exact h1
      · exact textBefore_trans h1 (hu c hc)
    · exact h
    · refine List.pairwise_cons.2 ⟨fun c hc => ?_, ih hr⟩
      rcases mem_filterInsert.1 hc with rfl | hc
      · exact textBefore_total (by simpa using h1) h2
      · exact hu c hc

theorem length_filterInsert (t : Text) (l : List Text) : (filterInsert t l).length ≤ l.length + 1 := by
  induction l with
  | nil => simp [filterInsert]
  | cons u r ih =>
    unfold filterInsert
    split_ifs
    · simp
    · simp
    · simpa using ih

/-- The codes of a filter are those given (R186). -/
theorem mem_filterOf {c : Text} {l : List Text} : c ∈ filterOf l ↔ c ∈ l := by
  induction l with
  | nil => simp [filterOf]
  | cons t r ih => rw [show filterOf (t :: r) = filterInsert t (filterOf r) from rfl, mem_filterInsert, ih, List.mem_cons]

/-- A filter is held in ascending character order without repeats (R186). -/
theorem filterOf_sorted (l : List Text) : (filterOf l).Pairwise (fun a b => textBefore a b = true) := by
  induction l with
  | nil => simp [filterOf]
  | cons t r ih => exact filterInsert_sorted ih

theorem length_filterOf (l : List Text) : (filterOf l).length ≤ l.length := by
  induction l with
  | nil => simp [filterOf]
  | cons t r ih => exact (length_filterInsert t _).trans (Nat.succ_le_succ ih)

/-! ### Settings in range -/

theorem clamp_range {lo hi : Nat} (h : lo ≤ hi) (n : Nat) : lo ≤ clamp lo hi n ∧ clamp lo hi n ≤ hi := by
  unfold clamp; omega

/-- A number taken from a message, or kept, lies in its range (R187). -/
theorem clamped_range {lo hi old : Nat} (h : lo ≤ hi) (given : Option Nat) (hold : lo ≤ old ∧ old ≤ hi) :
    lo ≤ (given.map (clamp lo hi)).getD old ∧ (given.map (clamp lo hi)).getD old ≤ hi := by
  cases given with
  | none => exact hold
  | some n => exact clamp_range h n

theorem filterOK_iff (l : List Text) : filterOK l = true ↔ l.length ≤ 4 ∧ ∀ c ∈ l, platformOK c = true := by
  simp [filterOK]

/-- An accepted SET BOARD leaves every setting within its range (R186, R187). -/
theorem newSettings_ok {f : BoardFields} {o : Settings} (hf : filterOK (f.filter.getD []) = true) (h : SettingsOK o) :
    SettingsOK (newSettings f o) := by
  obtain ⟨hfilter, horigin, hsweep, hhold, hlimit, hcount, hlate, hhor, hgrace, hdwell, hrate, hpause, halign⟩ := h
  refine ⟨?_, (clamped_range (by omega) _ ⟨Nat.zero_le _, horigin⟩).2, (clamped_range (by omega) _ ⟨Nat.zero_le _, hsweep⟩).2,
    clamped_range (by omega) _ hhold, clamped_range (by omega) _ hlimit, (clamped_range (by omega) _ ⟨Nat.zero_le _, hcount⟩).2,
    clamped_range (by omega) _ hlate, clamped_range (by omega) _ hhor, (clamped_range (by omega) _ ⟨Nat.zero_le _, hgrace⟩).2,
    clamped_range (by omega) _ hdwell, clamped_range (by omega) _ hrate, (clamped_range (by omega) _ ⟨Nat.zero_le _, hpause⟩).2,
    clamped_range (by omega) _ halign⟩
  cases hl : f.filter with
  | none => simpa [newSettings, hl] using hfilter
  | some l =>
    obtain ⟨hlen, hcodes⟩ := (filterOK_iff l).1 (by simpa [hl] using hf)
    have hn : (newSettings f o).filter = filterOf l := by simp [newSettings, hl]
    rw [hn]
    exact ⟨(length_filterOf l).trans hlen, fun c hc => hcodes c (mem_filterOf.1 hc), filterOf_sorted l⟩

theorem defaultSettings_ok : SettingsOK Settings.default := by
  unfold SettingsOK
  decide

/-! ### The frame of the table's events -/

/-- The phase, elapsed time and settings stand, and of the directory all but the counts. -/
def TableFrame (s t : State) : Prop :=
  t.phase = s.phase ∧ t.elapsed = s.elapsed ∧ t.settings = s.settings ∧ t.dir = { s.dir with counts := t.dir.counts }

theorem TableFrame.refl (s : State) : TableFrame s s := ⟨rfl, rfl, rfl, rfl⟩

theorem TableFrame.trans {s t u : State} (h : TableFrame s t) (g : TableFrame t u) : TableFrame s u := by
  obtain ⟨h1, h2, h3, h4⟩ := h
  obtain ⟨g1, g2, g3, g4⟩ := g
  exact ⟨g1.trans h1, g2.trans h2, g3.trans h3, g4.trans (by rw [h4])⟩

theorem tableFrame_ite {p : Prop} [Decidable p] {s t u : State} (ht : TableFrame s t) (hu : TableFrame s u) :
    TableFrame s (if p then t else u) := by
  split
  · exact ht
  · exact hu

theorem Beside.tableFrame {s t : State} (h : Beside s t) : TableFrame s t := by
  obtain ⟨h1, h2, h3, -, h5⟩ := h
  exact ⟨h1, h2, h3, by rw [h5]⟩

theorem answer_tableFrame (kind : Byte) (h : Header) (o d : Nat) (s : State) : TableFrame s (answer kind h o d s) :=
  (answer_beside _ _ _ _ _).tableFrame

theorem TableFrame.answer {s t : State} (h : TableFrame s t) (kind : Byte) (hd : Header) (o d : Nat) :
    TableFrame s (Sys2Proof.Machine.answer kind hd o d t) := h.trans (answer_tableFrame _ _ _ _ _)

theorem retable_tableFrame (l : List (Option Record)) (s : State) : TableFrame s (retable l s) := ⟨rfl, rfl, rfl, rfl⟩

theorem touchWindow_tableFrame (s : State) : TableFrame s (touchWindow s) := by simp [TableFrame]

theorem sweep_tableFrame (s : State) : TableFrame s (sweep s) :=
  ⟨sweep_phase s, sweep_elapsed s, sweep_settings s, by rw [sweep_dir]⟩

theorem acceptPost_tableFrame (h : Header) (f : PostFields) (s : State) : TableFrame s (acceptPost h f s) := by
  have refused (o d : Nat) : TableFrame s (answer kindPost h o d s) := answer_tableFrame _ _ _ _ _
  have created (l : List (Option Record)) (u : State) : TableFrame u (createRecord (postRecord f) l u) := ⟨rfl, rfl, rfl, rfl⟩
  unfold acceptPost
  refine tableFrame_ite ?_ (refused _ _)
  dsimp only
  split
  · split
    · exact refused _ _
    · unfold postCreate
      dsimp only
      split
      · exact (created _ s).answer _ _ _ _
      · split
        · exact refused _ _
        · split
          · exact ((sweep_tableFrame s).trans (created _ _)).answer _ _ _ _
          · exact (sweep_tableFrame s).answer _ _ _ _
  · split
    · exact refused _ _
    · exact refused _ _
    · split
      · exact refused _ _
      · exact TableFrame.answer (t := replaceRecord _ _ s) ⟨rfl, rfl, rfl, rfl⟩ _ _ _ _

theorem acceptAmend_tableFrame (h : Header) (f : AmendFields) (s : State) : TableFrame s (acceptAmend h f s) := by
  have refused (o d : Nat) : TableFrame s (answer kindAmend h o d s) := answer_tableFrame _ _ _ _ _
  unfold acceptAmend
  refine tableFrame_ite ?_ (refused _ _)
  split
  · exact refused _ _
  · split
    · exact refused _ _
    · split
      · exact refused _ _
      · exact refused _ _
      · exact tableFrame_ite ((retable_tableFrame _ s).answer _ _ _ _) (refused _ _)

theorem sweepAtZero_tableFrame (left : Bool) (s : State) : TableFrame s (sweepAtZero left s) :=
  tableFrame_ite (sweep_tableFrame s) (.refl s)

theorem retireRecord_tableFrame (key : Nat) (s : State) : TableFrame s (retireRecord key s) :=
  ((touchWindow_tableFrame s).trans (retable_tableFrame _ _)).trans (sweepAtZero_tableFrame _ _)

theorem acceptRetire_tableFrame (h : Header) (key : Nat) (s : State) : TableFrame s (acceptRetire h key s) := by
  unfold acceptRetire
  refine tableFrame_ite ?_ (answer_tableFrame _ _ _ _ _)
  split
  · exact answer_tableFrame _ _ _ _ _
  · exact (tableFrame_ite (retireRecord_tableFrame key s) (.refl s)).answer _ _ _ _

theorem windowExpiry_tableFrame (s : State) : TableFrame s (windowExpiry s) := by
  unfold windowExpiry
  split
  · exact .refl s
  · exact sweep_tableFrame s

theorem rollover_tableFrame (s : State) : TableFrame s (rollover s).1 := by
  rw [rollover_eq]
  exact (tableFrame_ite (touchWindow_tableFrame s) (.refl s)).trans (retable_tableFrame _ _)

theorem ageTable_tableFrame (s : State) : TableFrame s (ageTable s).1 := by
  rw [ageTable_eq]
  exact (tableFrame_ite (touchWindow_tableFrame s) (.refl s)).trans (retable_tableFrame _ _)

theorem passOrigin_tableFrame (p : OriginPassage) (s : State) : TableFrame s (passOrigin p s).1 := by
  cases p with
  | no => exact .refl s
  | backward => exact (withTime_beside _ _).tableFrame
  | forward =>
    unfold passOrigin
    dsimp only
    split
    · exact (withTime_beside _ _).tableFrame
    · exact rollover_tableFrame s

theorem timeStages_tableFrame (p : OriginPassage) (s : State) : TableFrame s (timeStages p s) :=
  ((passOrigin_tableFrame p s).trans ((recomputeNow_beside _).tableFrame.trans (ageTable_tableFrame _))).trans
    ((sweepAtZero_tableFrame _ _).trans (repaintRequests_beside _).tableFrame)

theorem TableEvent.tableFrame {s t : State} (he : TableEvent s t) : TableFrame s t := by
  cases he with
  | post h f => exact acceptPost_tableFrame h f s
  | amend h f => exact acceptAmend_tableFrame h f s
  | retire h key => exact acceptRetire_tableFrame h key s
  | clear h => exact TableFrame.answer (t := retable _ _) ⟨rfl, rfl, rfl, rfl⟩ _ _ _ _
  | expiry => exact windowExpiry_tableFrame s
  | stages p => exact timeStages_tableFrame p s

/-! ### The window -/

/-- The window fits elapsed time with `slack` ms to spare before its expiry: under a CLOSED window every record is LIVE, an OPEN one
expires not past its cap, and the cap lies within 50 s (R55, R56, R62). -/
def WindowFits (slack elapsed : Nat) (t : Table) : Prop :=
  match t.window with
  | .closed => ∀ r ∈ recordsOf t.slots, r.isLive = true
  | .opened expiry cap => elapsed + slack ≤ expiry ∧ expiry ≤ cap ∧ cap ≤ elapsed + 50000

theorem windowInv_iff (s : State) : WindowInv s ↔
    SettingsOK s.settings ∧ (s.phase = .inReset → s.table = Table.reset) ∧ WindowFits 1 s.elapsed s.table := by
  unfold WindowInv WindowFits State.records
  cases s.table.window <;> exact Iff.rfl

/-- Under an unchanged window a change of the records may only keep LIVE what is LIVE. -/
theorem WindowFits.records {slack elapsed : Nat} {t u : Table} (h : WindowFits slack elapsed t) (hw : u.window = t.window)
    (hlive : (∀ r ∈ recordsOf t.slots, r.isLive = true) → ∀ r ∈ recordsOf u.slots, r.isLive = true) :
    WindowFits slack elapsed u := by
  unfold WindowFits at h ⊢
  rw [hw]
  cases hwin : t.window with
  | closed => rw [hwin] at h; exact hlive h
  | opened expiry cap => rw [hwin] at h; exact h

theorem recordsOf_keepLive_live (slots : List (Option Record)) : ∀ r ∈ recordsOf (keepLive slots), r.isLive = true := by
  intro r hr
  rw [recordsOf_keepLive] at hr
  exact (List.mem_filter.1 hr).2

theorem sweep_fits (slack elapsed : Nat) (s : State) : WindowFits slack elapsed (sweep s).table :=
  recordsOf_keepLive_live s.table.slots

/-- With a length above 0 the window is OPEN after a record became LEAVING, whatever the records are by then (R55, R56). -/
theorem touchWindow_opened {slack : Nat} {s : State} (hslack : slack ≤ 1) (hset : SettingsOK s.settings)
    (h : WindowFits slack s.elapsed s.table) (hlen : s.settings.sweepLength ≠ 0) :
    ∃ expiry cap, (touchWindow s).table.window = .opened expiry cap ∧ s.elapsed + slack ≤ expiry ∧ expiry ≤ cap ∧
      cap ≤ s.elapsed + 50000 := by
  obtain ⟨-, -, hmost, -⟩ := hset
  have ht : ¬ 1000 * s.settings.sweepLength = 0 := by omega
  unfold WindowFits at h
  unfold touchWindow
  rw [if_neg ht]
  cases hw : s.table.window with
  | closed => exact ⟨_, _, rfl, by omega, by omega, by omega⟩
  | opened expiry cap =>
    rw [hw] at h
    exact ⟨_, _, rfl, by omega, by omega, by omega⟩

theorem touchWindow_zero {s : State} (hlen : s.settings.sweepLength = 0) : touchWindow s = s := by
  unfold touchWindow; simp [hlen]

/-- A pass over the records that touches the window when it makes one LEAVING: it leaves the window fitting, or the length is 0
and the sweep is still to follow (R42, R44, R57). -/
theorem pass_fits {slack : Nat} {s : State} (hslack : slack ≤ 1) (hset : SettingsOK s.settings)
    (h : WindowFits slack s.elapsed s.table) (left : Bool) (slots : List (Option Record))
    (hlive : left = false → (∀ r ∈ recordsOf s.table.slots, r.isLive = true) → ∀ r ∈ recordsOf slots, r.isLive = true) :
    (left = true ∧ s.settings.sweepLength = 0) ∨
      WindowFits slack s.elapsed (retable slots (touchIf left s)).table := by
  cases left with
  | false => exact .inr (h.records rfl (hlive rfl))
  | true =>
    by_cases hlen : s.settings.sweepLength = 0
    · exact .inl ⟨rfl, hlen⟩
    · obtain ⟨expiry, cap, hw, hb⟩ := touchWindow_opened hslack hset h hlen
      right
      unfold WindowFits
      simpa [touchIf, hw] using hb

theorem rollover_fits {slack : Nat} {s : State} (hslack : slack ≤ 1) (hset : SettingsOK s.settings)
    (h : WindowFits slack s.elapsed s.table) :
    ((rollover s).2 = true ∧ s.settings.sweepLength = 0) ∨ WindowFits slack s.elapsed (rollover s).1.table := by
  rw [rollover_eq]
  refine pass_fits hslack hset h _ _ fun hleft hall r hr => ?_
  rw [recordsOf_mapRecords] at hr
  obtain ⟨q, hq, rfl⟩ := List.mem_map.1 hr
  have hlive := hall q hq
  have hstay := List.any_eq_false.1 hleft q hq
  simp only [hlive, Bool.true_and, decide_eq_true_eq, Int.not_lt] at hstay
  rw [rollRecord, if_pos hstay]
  exact hlive

theorem ageTable_fits {slack : Nat} {s : State} (hslack : slack ≤ 1) (hset : SettingsOK s.settings)
    (h : WindowFits slack s.elapsed s.table) :
    ((ageTable s).2 = true ∧ s.settings.sweepLength = 0) ∨ WindowFits slack s.elapsed (ageTable s).1.table := by
  rw [ageTable_eq]
  refine pass_fits hslack hset h _ _ fun hleft hall r hr => ?_
  rw [recordsOf_mapRecords] at hr
  obtain ⟨q, hq, rfl⟩ := List.mem_map.1 hr
  rw [ageRecord, if_neg (List.any_eq_false.1 hleft q hq)]
  exact hall q hq

theorem passOrigin_fits {slack : Nat} {s : State} (p : OriginPassage) (hslack : slack ≤ 1) (hset : SettingsOK s.settings)
    (h : WindowFits slack s.elapsed s.table) :
    ((passOrigin p s).2 = true ∧ s.settings.sweepLength = 0) ∨ WindowFits slack s.elapsed (passOrigin p s).1.table := by
  cases p with
  | no => exact .inr h
  | backward => exact .inr h
  | forward =>
    unfold passOrigin
    dsimp only
    split
    · exact .inr h
    · exact rollover_fits hslack hset h

theorem timeStages_fits {slack : Nat} {s : State} (p : OriginPassage) (hslack : slack ≤ 1) (hset : SettingsOK s.settings)
    (h : WindowFits slack s.elapsed s.table) : WindowFits slack s.elapsed (timeStages p s).table := by
  obtain ⟨-, ha, hb, -⟩ := passOrigin_tableFrame p s
  obtain ⟨-, -, hb', -⟩ := ageTable_tableFrame (recomputeNow (passOrigin p s).1)
  have hset' : (ageTable (recomputeNow (passOrigin p s).1)).1.settings = s.settings := hb'.trans hb
  have hfin : (timeStages p s).table = (sweepAtZero ((passOrigin p s).2 || (ageTable (recomputeNow (passOrigin p s).1)).2)
      (ageTable (recomputeNow (passOrigin p s).1)).1).table := rfl
  rw [hfin, sweepAtZero_eq, hset']
  have two : (((passOrigin p s).2 || (ageTable (recomputeNow (passOrigin p s).1)).2) = true ∧ s.settings.sweepLength = 0) ∨
      WindowFits slack s.elapsed (ageTable (recomputeNow (passOrigin p s).1)).1.table := by
    rcases passOrigin_fits p hslack hset h with ⟨hleft, hlen⟩ | hfit
    · exact .inl ⟨by simp [hleft], hlen⟩
    · have hset1 : SettingsOK (recomputeNow (passOrigin p s).1).settings := by
        show SettingsOK (passOrigin p s).1.settings
        rw [hb]; exact hset
      have helapsed : (recomputeNow (passOrigin p s).1).elapsed = s.elapsed := ha
      rcases ageTable_fits (s := recomputeNow (passOrigin p s).1) hslack hset1 (by rw [helapsed]; exact hfit) with
        ⟨hleft, hlen⟩ | hfit
      · exact .inl ⟨by simp [hleft], by rw [← hb]; exact hlen⟩
      · exact .inr (by rw [← helapsed]; exact hfit)
  split
  · exact sweep_fits _ _ _
  · next hno => exact two.resolve_left hno

theorem postRecord_live (f : PostFields) : (postRecord f).isLive = true := rfl

theorem createRecord_fits {slack elapsed : Nat} {s : State} {new : Record} {slots : List (Option Record)}
    (hnew : new.isLive = true) (hins : insertRecord new s.table.slots = some slots)
    (h : WindowFits slack elapsed s.table) : WindowFits slack elapsed (createRecord new slots s).table := by
  obtain ⟨i, hi, rfl⟩ := insertRecord_some hins
  refine h.records rfl fun hall r hr => ?_
  rcases List.mem_cons.1 ((recordsOf_set new hi).mem_iff.1 hr) with rfl | hr
  · exact hnew
  · exact hall r hr

/-- A change of records that keeps LIVE what is LIVE. -/
theorem mapRecord_fits {slack elapsed : Nat} {s : State} (key : Nat) {g : Record → Record}
    (hg : ∀ r, r.isLive = true → (g r).isLive = true) (h : WindowFits slack elapsed s.table) :
    WindowFits slack elapsed (retable (mapRecord key g s.table.slots) s).table := by
  refine h.records rfl fun hall r hr => ?_
  have hr : r ∈ recordsOf (mapRecords (fun r => if r.key = key then g r else r) s.table.slots) := hr
  rw [recordsOf_mapRecords] at hr
  obtain ⟨q, hq, rfl⟩ := List.mem_map.1 hr
  split
  · exact hg q (hall q hq)
  · exact hall q hq

theorem acceptPost_fits {slack elapsed : Nat} {s : State} (hd : Header) (f : PostFields)
    (h : WindowFits slack elapsed s.table) : WindowFits slack elapsed (acceptPost hd f s).table := by
  have same (o d : Nat) : WindowFits slack elapsed (answer kindPost hd o d s).table := by simpa using h
  unfold acceptPost
  split
  · dsimp only
    split
    · split
      · exact same _ _
      · unfold postCreate
        dsimp only
        split
        · next slots hins => rw [answer_table]; exact createRecord_fits (postRecord_live f) hins h
        · split
          · exact same _ _
          · split
            · next slots hins =>
              rw [answer_table]; exact createRecord_fits (postRecord_live f) hins (sweep_fits _ _ _)
            · rw [answer_table]; exact sweep_fits _ _ _
    · split
      · exact same _ _
      · exact same _ _
      · split
        · exact same _ _
        · rw [answer_table]; exact mapRecord_fits (s := recount _ s) _ (fun _ _ => postRecord_live f) h
  · exact same _ _

theorem acceptAmend_fits {slack elapsed : Nat} {s : State} (hd : Header) (f : AmendFields)
    (h : WindowFits slack elapsed s.table) : WindowFits slack elapsed (acceptAmend hd f s).table := by
  have same (o d : Nat) : WindowFits slack elapsed (answer kindAmend hd o d s).table := by simpa using h
  unfold acceptAmend
  split
  · split
    · exact same _ _
    · split
      · exact same _ _
      · split
        · exact same _ _
        · exact same _ _
        · split
          · rw [answer_table]; exact mapRecord_fits _ (fun _ hl => hl) h
          · exact same _ _
  · exact same _ _

theorem retireRecord_fits {slack : Nat} {s : State} (key : Nat) (hslack : slack ≤ 1) (hset : SettingsOK s.settings)
    (h : WindowFits slack s.elapsed s.table) : WindowFits slack s.elapsed (retireRecord key s).table := by
  unfold retireRecord
  rw [sweepAtZero_eq]
  split
  · exact sweep_fits _ _ _
  · next hno =>
    rcases pass_fits hslack hset h true (mapRecord key (Record.leave .retired) (touchWindow s).table.slots)
      (fun hf => nomatch hf) with ⟨-, hlen⟩ | hfit
    · exact absurd ⟨rfl, by simpa using hlen⟩ hno
    · exact hfit

theorem acceptRetire_fits {slack : Nat} {s : State} (hd : Header) (key : Nat) (hslack : slack ≤ 1)
    (hset : SettingsOK s.settings) (h : WindowFits slack s.elapsed s.table) :
    WindowFits slack s.elapsed (acceptRetire hd key s).table := by
  unfold acceptRetire
  split
  · split
    · simpa using h
    · rw [answer_table]
      split
      · exact retireRecord_fits key hslack hset h
      · exact h
  · simpa using h

theorem TableEvent.fits {slack : Nat} {s t : State} (he : TableEvent s t) (hslack : slack ≤ 1) (hset : SettingsOK s.settings)
    (h : WindowFits slack s.elapsed s.table) : WindowFits slack s.elapsed t.table := by
  cases he with
  | post hd f => exact acceptPost_fits hd f h
  | amend hd f => exact acceptAmend_fits hd f h
  | retire hd key => exact acceptRetire_fits hd key hslack hset h
  | clear hd =>
    rw [acceptClear_table]
    intro r hr
    rw [recordsOf_replicate_none] at hr
    cases hr
  | expiry =>
    unfold windowExpiry
    split
    · exact h
    · exact sweep_fits _ _ _
  | stages p => exact timeStages_fits p hslack hset h

/-! ### Every step -/

/-- The settings are in range and the window fits, with `slack` ms to spare. -/
def WindowWithin (slack : Nat) (s : State) : Prop :=
  SettingsOK s.settings ∧ WindowFits slack s.elapsed s.table

theorem LeavesTable.within {slack : Nat} {s t : State} (hl : LeavesTable s t) (h : WindowWithin slack s) :
    WindowWithin slack t := by
  obtain ⟨-, he, hset, htab, -⟩ := hl
  unfold WindowWithin
  rw [he, hset, htab]
  exact h

theorem withFilterApplied_within {slack : Nat} {s : State} {new : Settings} (hnew : SettingsOK new)
    (h : WindowWithin slack s) : WindowWithin slack (withFilterApplied new s) := by
  obtain ⟨-, hfit⟩ := h
  unfold withFilterApplied
  split <;> exact ⟨hnew, hfit⟩

theorem acceptSetBoard_within {slack : Nat} {s : State} (hd : Header) (f : BoardFields) (h : WindowWithin slack s) :
    WindowWithin slack (acceptSetBoard hd f s) := by
  have same (o d : Nat) : WindowWithin slack (answer kindSetBoard hd o d s) :=
    (answer_beside _ _ _ _ _).leavesTable.within h
  unfold acceptSetBoard
  dsimp only
  split_ifs with hf h2
  · exact same _ _
  · exact same _ _
  · have hf : filterOK (f.filter.getD []) = true := by simpa using hf
    obtain ⟨hset, -⟩ := id h
    exact (answer_beside _ _ _ _ _).leavesTable.within
      ((applySettings_leavesTable _ s).within (withFilterApplied_within (newSettings_ok hf hset) h))
  · have hf : filterOK (f.filter.getD []) = true := by simpa using hf
    obtain ⟨hset, -⟩ := id h
    exact (answer_beside _ _ _ _ _).leavesTable.within
      ((applySettings_leavesTable _ s).within (withFilterApplied_within (newSettings_ok hf hset) h))

theorem tableReset_fits (slack elapsed : Nat) : WindowFits slack elapsed Table.reset := by
  intro r hr
  rw [show recordsOf Table.reset.slots = [] from recordsOf_replicate_none 96] at hr
  cases hr

theorem Change.within {slack : Nat} (hslack : slack ≤ 1) {s t : State} (hc : Change s t) (h : WindowWithin slack s) :
    WindowWithin slack t := by
  obtain ⟨hset, hfit⟩ := id h
  cases hc with
  | beside hb => exact hb.leavesTable.within h
  | settle => exact (settle_leavesTable s).within h
  | table he =>
    obtain ⟨-, helapsed, hsame, -⟩ := he.tableFrame
    exact ⟨hsame ▸ hset, helapsed ▸ he.fits hslack hset hfit⟩
  | directory he => exact he.leavesTable.within h
  | setBoard hd f => exact acceptSetBoard_within hd f h
  | restart =>
    obtain ⟨-, -, hd, htab, -⟩ := acceptRestart_blocks s
    exact ⟨hd ▸ defaultSettings_ok, htab ▸ tableReset_fits _ _⟩

theorem applySettings_phase (new : Settings) (s : State) : (applySettings new s).phase = s.phase := by
  obtain ⟨h, -⟩ := applySettings_leavesTable new s
  rw [h]
  unfold withFilterApplied
  split <;> rfl

theorem Change.phase {s t : State} (hc : Change s t) : t.phase = s.phase := by
  cases hc with
  | beside hb => exact hb.leavesTable.1
  | settle => exact settle_phase s
  | table he => exact he.tableFrame.1
  | directory he => exact he.leavesTable.1
  | setBoard hd f =>
    unfold acceptSetBoard
    dsimp only
    split_ifs <;> simp [applySettings_phase]
  | restart => exact (acceptRestart_blocks s).1

theorem Changes.phase {s t : State} (h : Changes s t) : t.phase = s.phase :=
  h.keep (P := fun u => u.phase = s.phase) (fun _ _ hc hp => hc.phase.trans hp) rfl

theorem Changes.within {slack : Nat} (hslack : slack ≤ 1) {s t : State} (hc : Changes s t) (h : WindowWithin slack s) :
    WindowWithin slack t :=
  hc.keep (fun _ _ hc => hc.within hslack) h

/-- The timers take the window's last millisecond of slack (R54). -/
theorem advanceTimers_within {s : State} (h : WindowWithin 1 s) : WindowWithin 0 (advanceTimers s) := by
  obtain ⟨hset, hfit⟩ := h
  refine ⟨hset, ?_⟩
  have htab : (advanceTimers s).table = s.table := rfl
  have helapsed : (advanceTimers s).elapsed = s.elapsed + 1 := rfl
  rw [htab, helapsed]
  unfold WindowFits at hfit ⊢
  cases hw : s.table.window with
  | closed => rw [hw] at hfit; exact hfit
  | opened expiry cap => rw [hw] at hfit; dsimp only at hfit ⊢; omega

/-- The window's own turn sweeps when its expiry has come, so that it is ahead again (R59). -/
theorem windowTurn_within {s : State} (h : WindowWithin 0 s) : WindowWithin 1 (fireWhen windowDue windowExpiry s) := by
  obtain ⟨hset, hfit⟩ := id h
  unfold fireWhen windowDue windowExpiry
  unfold WindowFits at hfit
  cases hw : s.table.window with
  | closed =>
    rw [hw] at hfit
    refine ⟨hset, ?_⟩
    simpa [WindowFits, hw] using hfit
  | opened expiry cap =>
    rw [hw] at hfit
    dsimp only at hfit ⊢
    split
    · exact (settle_leavesTable _).within ⟨hset, sweep_fits _ _ _⟩
    · next hdue =>
      refine ⟨hset, ?_⟩
      simp only [decide_eq_true_eq] at hdue
      simp only [WindowFits, hw]
      omega

theorem windowInv_of_running {s : State} (hr : Running s) (h : WindowWithin 1 s) : WindowInv s := by
  obtain ⟨hset, hfit⟩ := h
  have hne : s.phase ≠ .inReset := by rw [show s.phase = .running from hr]; simp
  exact (windowInv_iff s).2 ⟨hset, fun hp => absurd hp hne, hfit⟩

theorem hardReset_windowInv (s : State) : WindowInv (hardReset s) :=
  (windowInv_iff _).2 ⟨defaultSettings_ok, fun _ => rfl, tableReset_fits _ _⟩

theorem Beside.windowInv {s t : State} (hb : Beside s t) (h : WindowInv s) : WindowInv t := by
  obtain ⟨hp, he, hset, htab, -⟩ := hb
  rw [windowInv_iff] at h ⊢
  rw [hp, he, hset, htab]
  exact h

theorem ExecCase.windowInv {s t : State} (hc : ExecCase s t) (h : WindowInv s) : WindowInv t := by
  obtain ⟨hset, hreset, hfit⟩ := (windowInv_iff s).1 h
  cases hc with
  | beside hb => exact hb.windowInv h
  | chain hr hc => exact windowInv_of_running (hc.phase.trans hr) (hc.within (le_refl 1) ⟨hset, hfit⟩)
  | reset => exact hardReset_windowInv s
  | release geo1 geo0 hp =>
    obtain ⟨hrun, -, hsame, htab, -⟩ := releaseReset_blocks geo1 geo0 hp
    refine windowInv_of_running hrun ⟨hsame ▸ hset, ?_⟩
    rw [htab, hreset hp]
    exact tableReset_fits _ _

/-- Settles O6: every change keeps the window within its cap, and the millisecond a tick takes from it is given back by the
window's own turn. -/
theorem sweepWindowInvariantKept : Obligations.SweepWindowInvariantKept := by
  intro s t h hstep
  rcases step_case hstep with ⟨rest, hc⟩ | ⟨-, rfl⟩ | ⟨hr, rfl⟩
  · exact hc.windowInv ((withPending_beside s rest).windowInv h)
  · exact h
  · obtain ⟨hset, -, hfit⟩ := (windowInv_iff s).1 h
    obtain ⟨u, h1, h2⟩ := tick_changes s
    have hturn := windowTurn_within (h1.within (Nat.zero_le 1) (advanceTimers_within ⟨hset, hfit⟩))
    have hu : u.phase = s.phase := h1.phase
    have hfire : (fireWhen windowDue windowExpiry u).phase = u.phase :=
      (fireWhen_changes (Change.table .expiry).changes).phase
    exact windowInv_of_running ((h2.phase.trans hfire).trans (hu.trans hr)) (h2.within (le_refl 1) hturn)

end Sys2Proof.Machine

/-! SUPPORT and O11. The Place Directory's invariant: what each operation on storage, slot states and the operation state keeps, and
that every step keeps the directory in order. -/

namespace Sys2Proof.Machine

/-! ### The invariant by its parts -/

/-- The Place Directory in order: `DirectoryInv` by its parts, for the directory alone. -/
structure DirectoryOK (d : Directory) : Prop where
  storage : cellsFrom StoredSlot.erased 1024 0 d.storage = true
  states : cellsFrom .blank 1024 0 d.slotStates = true
  marks : SetBelow 8 d.eraseMarks
  flags : SetBelow 8 d.lockFlags
  locks : SetBelow 8 d.locks
  op : OpOK d d.op
  reads : d.op ≠ .scanning → ∀ p < 1024, begunSector d.op ≠ some (sectorOf p) →
    slotState d p = if writingSlot d.op = some p then .writing else markedState d p
  unlocked : ∀ a ∈ d.op.eraseSet, a ∉ d.locks
  used : ∀ p < 1024, 0 < cellGet 0 d.counts p → sectorOf p ∉ d.op.eraseSet ∧ slotState d p = .valid

theorem directoryInv_iff (s : State) : DirectoryInv s ↔ DirectoryOK s.dir := by
  constructor
  · rintro ⟨⟨h1, h2⟩, ⟨h3, h4, h5⟩, h6, h7, h8, h9⟩
    exact ⟨h1, h2, h3, h4, h5, h6, h7, h8, h9⟩
  · rintro ⟨h1, h2, h3, h4, h5, h6, h7, h8, h9⟩
    exact ⟨⟨h1, h2⟩, ⟨h3, h4, h5⟩, h6, h7, h8, h9⟩

theorem sectorOf_eq_iff {p a : Nat} : sectorOf p = a ↔ 128 * a ≤ p ∧ p < 128 * a + 128 := by
  unfold sectorOf; omega

theorem setInsert_below {n a : Nat} {l : List Nat} (h : SetBelow n l) (ha : a < n) : SetBelow n (setInsert a l) := by
  obtain ⟨hs, hb⟩ := h
  refine ⟨setInsert_sorted hs, fun b hm => ?_⟩
  rcases mem_setInsert.1 hm with rfl | hm
  · exact ha
  · exact hb b hm

theorem setRemoveAll_below {n : Nat} {l m : List Nat} (h : SetBelow n m) : SetBelow n (setRemoveAll l m) := by
  obtain ⟨hs, hb⟩ := h
  exact ⟨setRemoveAll_sorted hs, fun b hm => hb b (mem_setRemoveAll.1 hm).1⟩

theorem setInsertAll_below {n : Nat} {l m : List Nat} (h : SetBelow n m) (hl : ∀ a ∈ l, a < n) :
    SetBelow n (setInsertAll l m) := by
  obtain ⟨hs, hb⟩ := h
  refine ⟨setInsertAll_sorted hs, fun b hm => ?_⟩
  rcases mem_setInsertAll.1 hm with hm | hm
  · exact hl b hm
  · exact hb b hm

/-! ### The current sector -/

theorem CurrentOK.mem {d : Directory} {e : EraseJob} {c : Current} (h : CurrentOK d e c) : c.sector ∈ e.set := by
  obtain ⟨-, hhead, -⟩ := h
  exact List.mem_of_mem_head? hhead

theorem CurrentOK.sector_lt {d : Directory} {e : EraseJob} {c : Current} (h : CurrentOK d e c) : c.sector < 8 := by
  obtain ⟨⟨⟨-, hset⟩, -⟩, -⟩ := id h
  exact hset _ h.mem

/-- The lowest sector of an erase as its current sector, not begun (R81, R83). -/
theorem firstCurrent_ok (d : Directory) {e : EraseJob} (h : EraseOK e) : CurrentOK d e (firstCurrent e.set) := by
  refine ⟨h, ?_, le_refl _, fun hb => nomatch hb⟩
  obtain ⟨-, hne, -⟩ := h
  cases hs : e.set with
  | nil => exact absurd hs hne
  | cons a r => rfl

/-- An erase whose current sector is done, while sectors remain. -/
theorem EraseJob.done_ok {e : EraseJob} {sector : Nat} (h : EraseOK e) (hs : sector ∈ e.set)
    (hne : (e.done sector).set ≠ []) : EraseOK (e.done sector) := by
  obtain ⟨hset, -, herased, hdis, hjoin⟩ := h
  obtain ⟨hsorted, hlt⟩ := id hset
  refine ⟨setRemoveAll_below hset, hne, setInsert_below herased (hlt _ hs), fun a ha hm => ?_, hjoin⟩
  have hm := mem_setRemoveAll.1 hm
  rcases mem_setInsert.1 ha with rfl | ha
  · exact hm.2 (List.mem_singleton.2 rfl)
  · exact hdis a ha hm.1

/-! ### Changes of the operation state alone -/

theorem DirectoryOK.withOp {d : Directory} (h : DirectoryOK d) (op : DirOp) (hop : OpOK d op) (hscan : d.op ≠ .scanning)
    (hbegun : ∀ a, begunSector d.op = some a → begunSector op = some a) (hwrite : writingSlot op = writingSlot d.op)
    (hset : ∀ a ∈ op.eraseSet, a ∈ d.op.eraseSet) : DirectoryOK { d with op := op } where
  storage := h.storage
  states := h.states
  marks := h.marks
  flags := h.flags
  locks := h.locks
  op := by cases op <;> exact hop
  reads _ p hp hb := by
    have := h.reads hscan p hp (fun hx => hb (hbegun _ hx))
    rw [← hwrite] at this
    exact this
  unlocked a ha := h.unlocked a (hset a ha)
  used p hp hc := ⟨fun ha => (h.used p hp hc).1 (hset _ ha), (h.used p hp hc).2⟩

/-- The erase of the current sector runs: from a state whose erase set it is, with no write in hand and no other sector begun (R81,
R85). -/
theorem DirectoryOK.startErasing {d : Directory} {e : EraseJob} {c : Current} (h : DirectoryOK d) (hc : CurrentOK d e c)
    (hset : d.op.eraseSet = e.set) (hwrite : writingSlot d.op = none) (hscan : d.op ≠ .scanning)
    (hbegun : ∀ a, begunSector d.op = some a → a = c.sector) : DirectoryOK (Sys2Proof.Machine.startErasing e c d) where
  storage := h.storage
  states := h.states
  marks := setInsert_below h.marks hc.sector_lt
  flags := h.flags
  locks := h.locks
  op := by
    obtain ⟨he, hhead, hrem, -⟩ := hc
    exact ⟨⟨he, hhead, hrem, fun _ => mem_setInsert.2 (.inl rfl)⟩, rfl⟩
  reads _ p hp hb := by
    have hne : sectorOf p ≠ c.sector := fun hx => hb (congrArg some hx.symm)
    have hread := h.reads hscan p hp (fun hx => hne (hbegun _ hx))
    rw [hwrite] at hread
    simpa [markedState, slotState, Sys2Proof.Machine.startErasing, writingSlot, hne] using hread
  unlocked a ha := h.unlocked a (hset ▸ ha)
  used p hp hcnt := ⟨fun ha => (h.used p hp hcnt).1 (hset ▸ ha), (h.used p hp hcnt).2⟩

/-- ERASING goes on to SUSPENDING (R83, R87). -/
theorem DirectoryOK.haltErasing {d : Directory} {e : EraseJob} {c : Current} (h : DirectoryOK d) (hop : d.op = .erasing e c)
    (cause : SuspendCause) (merged : List Header) : DirectoryOK { d with op := .suspending e c cause merged } := by
  have hok := h.op
  rw [hop] at hok
  obtain ⟨hc, hb⟩ := hok
  exact h.withOp _ hc (by rw [hop]; simp) (by rw [hop]; exact fun a ha => ha) (by rw [hop]; rfl)
    (by rw [hop]; exact fun a ha => ha)

/-- A suspended erase runs again (R85, R86). -/
theorem DirectoryOK.resume {d : Directory} {e : EraseJob} {c : Current} {cause : SuspendCause} (h : DirectoryOK d)
    (hop : d.op = .suspended e c cause) : DirectoryOK (Sys2Proof.Machine.startErasing e c d) := by
  have hok := h.op
  rw [hop] at hok
  refine h.startErasing hok (by rw [hop]; rfl) (by rw [hop]; rfl) (by rw [hop]; simp) fun a ha => ?_
  rw [hop] at ha
  simp only [begunSector, Option.ite_none_right_eq_some, Option.some.injEq] at ha
  exact ha.2.symm

/-! ### The paint suspend request -/

theorem judgeRequest_directoryOK {s : State} (h : DirectoryOK s.dir) : DirectoryOK (judgeRequest s).dir := by
  rcases judgeRequest_cases s with hd | ⟨e, c, hop, -, -, hd⟩ | ⟨e, c, hop, hd, -⟩
  · rw [hd]; exact h
  · rw [hd]; exact h.haltErasing hop _ _
  · rw [hd]; exact h.resume hop

theorem settle_directoryOK {s : State} (h : DirectoryOK s.dir) : DirectoryOK (settle s).dir := by
  refine judgeRequest_directoryOK ?_
  rw [decideGrant_dir]
  exact judgeRequest_directoryOK h

theorem directoryRaise_directoryOK {s : State} (h : DirectoryOK s.dir) : DirectoryOK (directoryRaise s).dir := by
  unfold directoryRaise
  split
  · next e c hop =>
    split
    · exact h.haltErasing hop _ _
    · exact h
  · exact h

theorem directoryWithdraw_directoryOK {s : State} (h : DirectoryOK s.dir) : DirectoryOK (directoryWithdraw s).dir := by
  unfold directoryWithdraw
  split
  · next e c hop => exact h.resume hop
  · exact h

theorem deferredResume_directoryOK {s : State} (h : DirectoryOK s.dir) : DirectoryOK (deferredResume s).dir := by
  unfold deferredResume
  split
  · next e c hop =>
    split
    · exact h
    · exact h.resume hop
  · exact h

/-- Entering ERASING, with the paint request acted on at once or not (R87). -/
theorem enterErasing_directoryOK {s : State} {e : EraseJob} {c : Current} (h : DirectoryOK (startErasing e c s.dir)) :
    DirectoryOK (enterErasing e c s).dir := by
  unfold enterErasing
  dsimp only
  split
  · exact h.haltErasing (e := e) (c := { c with begun := true }) rfl .paint []
  · exact h

/-! ### Writing -/

/-- The directory with one slot changed in storage and in the slot-state table. -/
def withSlot (place : Nat) (slot : StoredSlot) (state : SlotState) (op : DirOp) (d : Directory) : Directory :=
  { d with
    storage := cellSet StoredSlot.erased d.storage place slot
    slotStates := cellSet .blank d.slotStates place state
    op := op }

theorem slotState_withSlot {d : Directory} (h : DirectoryOK d) (place : Nat) (slot : StoredSlot) (state : SlotState)
    (op : DirOp) (p : Nat) : slotState (withSlot place slot state op d) p = if p = place then state else slotState d p :=
  cellGet_cellSet h.states place state p

theorem markedState_withSlot {d : Directory} (h : DirectoryOK d) (place : Nat) (slot : StoredSlot) (state : SlotState)
    (op : DirOp) (p : Nat) : markedState (withSlot place slot state op d) p =
      if sectorOf p ∈ d.eraseMarks then .defective
      else if p = place then scannedState slot else markedState d p := by
  have hget : cellGet StoredSlot.erased (withSlot place slot state op d).storage p =
      if p = place then slot else cellGet StoredSlot.erased d.storage p := cellGet_cellSet h.storage place slot p
  unfold markedState
  rw [hget]
  by_cases hm : sectorOf p ∈ d.eraseMarks <;> by_cases hp : p = place <;> simp [withSlot, hm, hp]

/-- A slot that no record references changes, so that it reads as its write or its marks say (R70, R76, R77). -/
theorem DirectoryOK.withSlot {d : Directory} (h : DirectoryOK d) {place : Nat} {slot : StoredSlot} {state : SlotState}
    {op : DirOp} (hp : place < 1024) (hop : OpOK (Sys2Proof.Machine.withSlot place slot state op d) op)
    (hscan : d.op ≠ .scanning) (hbegun : begunSector op = begunSector d.op) (hset : op.eraseSet = d.op.eraseSet)
    (hnew : state = if writingSlot op = some place then .writing else scannedState slot)
    (hmark : sectorOf place ∉ d.eraseMarks)
    (hother : ∀ p, p ≠ place → writingSlot op ≠ some p ∧ writingSlot d.op ≠ some p)
    (hfree : slotState d place ≠ .valid) : DirectoryOK (Sys2Proof.Machine.withSlot place slot state op d) where
  storage := cellSet_canonical h.storage (Nat.zero_le _) hp
  states := cellSet_canonical h.states (Nat.zero_le _) hp
  marks := h.marks
  flags := h.flags
  locks := h.locks
  op := hop
  reads _ p hp' hb := by
    have hb : begunSector op ≠ some (sectorOf p) := hb
    rw [slotState_withSlot h, markedState_withSlot h]
    show _ = if writingSlot op = some p then _ else _
    by_cases hpp : p = place
    · subst hpp
      simp only [if_true, if_neg hmark]
      exact hnew
    · have hread := h.reads hscan p hp' (by rwa [hbegun] at hb)
      obtain ⟨hw, hw'⟩ := hother p hpp
      rw [if_neg hw'] at hread
      simp only [if_neg hpp, if_neg hw, hread]
      unfold markedState
      by_cases hm : sectorOf p ∈ d.eraseMarks <;> simp [hm]
  unlocked a ha := h.unlocked a (hset ▸ ha)
  used p hp' hc := by
    obtain ⟨hs, hv⟩ := h.used p hp' hc
    refine ⟨fun ha => hs (hset ▸ ha), ?_⟩
    rw [slotState_withSlot h, if_neg]
    · exact hv
    · rintro rfl
      exact hfree hv

/-- What the slot and its sector are where a write may start: the slot is blank, so its sector carries no mark (R76). -/
theorem DirectoryOK.unmarked_of_blank {d : Directory} (h : DirectoryOK d) {place : Nat} (hp : place < 1024)
    (hscan : d.op ≠ .scanning) (hbegun : begunSector d.op ≠ some (sectorOf place)) (hwrite : writingSlot d.op = none)
    (hblank : slotState d place = .blank) : sectorOf place ∉ d.eraseMarks := by
  intro hm
  have hread := h.reads hscan place hp hbegun
  rw [hblank, hwrite] at hread
  simp [markedState, hm] at hread

/-- A write starts on a blank slot outside the erase set (R76, R86). -/
theorem startWrite_directoryOK {s : State} {f : WriteFields} {op : DirOp} (h : DirectoryOK s.dir)
    (hf : writeFieldsOK f = true) (hblank : slotState s.dir f.place = .blank) (hscan : s.dir.op ≠ .scanning)
    (hwrite : writingSlot s.dir.op = none) (hnew : writingSlot op = some f.place)
    (hbegun : begunSector op = begunSector s.dir.op) (hbs : begunSector s.dir.op ≠ some (sectorOf f.place))
    (hset : op.eraseSet = s.dir.op.eraseSet)
    (hop : ∀ d' : Directory, d'.eraseMarks = s.dir.eraseMarks →
      (∀ w : WriteRun, w.place = f.place → WriteOK d' w) → OpOK d' op) :
    DirectoryOK (startWrite f op s).dir := by
  simp only [writeFieldsOK, Bool.and_eq_true, decide_eq_true_eq] at hf
  obtain ⟨hp, hentry⟩ := hf
  have hmark := h.unmarked_of_blank hp hscan hbs hwrite hblank
  refine h.withSlot (place := f.place) (slot := { entry := some f.entry, begun := true, complete := false })
    (state := .writing) hp (hop _ rfl fun w hw => ?_) hscan hbegun hset (by simp [hnew]) hmark (fun p hpp => ?_)
    (by rw [hblank]; simp)
  · have hget : cellGet StoredSlot.erased (withSlot f.place { entry := some f.entry, begun := true, complete := false }
        .writing op s.dir).storage w.place = { entry := some f.entry, begun := true, complete := false } := by
      rw [hw]
      exact (cellGet_cellSet h.storage _ _ _).trans (if_pos rfl)
    unfold WriteOK
    rw [hget, hw]
    exact ⟨hp, hmark, rfl, rfl, hentry⟩
  · rw [hnew, hwrite]
    exact ⟨fun hx => hpp (Option.some.inj hx).symm, by simp⟩

/-- A write ends, verified or not (R77). -/
theorem endWrite_directoryOK {s : State} {verified : Bool} {w : WriteRun} {op : DirOp} (h : DirectoryOK s.dir)
    (hw : WriteOK s.dir w) (hscan : s.dir.op ≠ .scanning) (hwrite : writingSlot s.dir.op = some w.place)
    (hnew : writingSlot op = none) (hbegun : begunSector op = begunSector s.dir.op)
    (hbs : begunSector s.dir.op ≠ some (sectorOf w.place)) (hset : op.eraseSet = s.dir.op.eraseSet)
    (hop : ∀ d' : Directory, d'.eraseMarks = s.dir.eraseMarks → OpOK d' op) :
    DirectoryOK (endWrite verified w op s).dir := by
  obtain ⟨hp, hmark, hb, hc, hentry⟩ := hw
  have hread := h.reads hscan w.place hp hbs
  rw [hwrite, if_pos rfl] at hread
  unfold endWrite
  rw [answer_dir]
  refine h.withSlot hp (hop _ rfl) hscan hbegun hset ?_ hmark (fun p hpp => ?_) (by rw [hread]; simp)
  · generalize hs : cellGet StoredSlot.erased s.dir.storage w.place = slot at hb hc hentry
    obtain ⟨entry, hentry, hok⟩ := (Option.any_eq_true _ _).1 hentry
    cases verified <;> simp_all [scannedState]
  · rw [hnew, hwrite]
    exact ⟨by simp, fun hx => hpp (Option.some.inj hx).symm⟩

/-! ### The sector done -/

/-- The begun sector erased, and the operation state gone on without it (R81). -/
theorem DirectoryOK.eraseSlots {d : Directory} (h : DirectoryOK d) {sector : Nat} {op : DirOp}
    (hbegun : begunSector d.op = some sector) (hmem : sector ∈ d.op.eraseSet) (hwrite : writingSlot d.op = none)
    (hnew : writingSlot op = none) (hset : ∀ a ∈ op.eraseSet, a ∈ d.op.eraseSet)
    (hop : OpOK { Sys2Proof.Machine.eraseSlots sector d with op := op } op) (hscan : d.op ≠ .scanning) :
    DirectoryOK { Sys2Proof.Machine.eraseSlots sector d with op := op } where
  storage := cellClear_canonical h.storage _ _
  states := cellClear_canonical h.states _ _
  marks := setRemoveAll_below h.marks
  flags := h.flags
  locks := h.locks
  op := hop
  reads _ p hp _ := by
    have hstate : slotState { Sys2Proof.Machine.eraseSlots sector d with op := op } p =
        if 128 * sector ≤ p ∧ p < 128 * sector + 128 then .blank else slotState d p := cellGet_cellClear h.states _ _ p
    have hslot : cellGet StoredSlot.erased (Sys2Proof.Machine.eraseSlots sector d).storage p =
        if 128 * sector ≤ p ∧ p < 128 * sector + 128 then StoredSlot.erased else cellGet StoredSlot.erased d.storage p :=
      cellGet_cellClear h.storage _ _ p
    have hmarks (a : Nat) : a ∈ (Sys2Proof.Machine.eraseSlots sector d).eraseMarks ↔ a ∈ d.eraseMarks ∧ a ≠ sector := by
      show a ∈ setRemoveAll [sector] d.eraseMarks ↔ _
      rw [mem_setRemoveAll, List.mem_singleton]
    have hnone : (none : Option Nat) ≠ some p := by simp
    rw [hstate]
    dsimp only
    rw [hnew, if_neg hnone]
    unfold markedState
    rw [hslot]
    simp only [hmarks]
    by_cases hps : sectorOf p = sector
    · rw [if_pos (sectorOf_eq_iff.1 hps), if_pos (sectorOf_eq_iff.1 hps)]
      simp [hps, scannedState, StoredSlot.erased]
    · have hread := h.reads hscan p hp (by rw [hbegun]; exact fun hx => hps (Option.some.inj hx).symm)
      have hrange : ¬ (128 * sector ≤ p ∧ p < 128 * sector + 128) := fun hx => hps (sectorOf_eq_iff.2 hx)
      rw [if_neg hrange, if_neg hrange, hread, hwrite, if_neg hnone]
      simp [markedState, hps]
  unlocked a ha := h.unlocked a (hset a ha)
  used p hp hc := by
    obtain ⟨hs, hv⟩ := h.used p hp hc
    refine ⟨fun ha => hs (hset _ ha), ?_⟩
    have hps : ¬ (128 * sector ≤ p ∧ p < 128 * sector + 128) := by
      intro hx
      have := sectorOf_eq_iff.2 hx
      exact hs (this ▸ hmem)
    exact (cellGet_cellClear h.states _ _ p).trans (by rw [if_neg hps]; exact hv)

/-- The begun sector of an erase is done: the erase ends, or the next sector becomes current, halted or running (R81, R84). -/
theorem DirectoryOK.sectorDone {d : Directory} {e : EraseJob} {c : Current} (h : DirectoryOK d) (hc : CurrentOK d e c)
    (hbegun : begunSector d.op = some c.sector) (hset : d.op.eraseSet = e.set) (hwrite : writingSlot d.op = none)
    (hscan : d.op ≠ .scanning) :
    DirectoryOK { Sys2Proof.Machine.eraseSlots c.sector d with op := .ready } ∧
    ((e.done c.sector).set ≠ [] →
      (∀ cause merged, DirectoryOK { Sys2Proof.Machine.eraseSlots c.sector d with
        op := .suspending (e.done c.sector) (firstCurrent (e.done c.sector).set) cause merged }) ∧
      DirectoryOK (Sys2Proof.Machine.startErasing (e.done c.sector) (firstCurrent (e.done c.sector).set)
        (Sys2Proof.Machine.eraseSlots c.sector d))) := by
  have hmem : c.sector ∈ d.op.eraseSet := hset ▸ hc.mem
  refine ⟨h.eraseSlots hbegun hmem hwrite rfl (fun a ha => nomatch ha) trivial hscan, fun hne => ?_⟩
  obtain ⟨he, -⟩ := id hc
  have hok := firstCurrent_ok { Sys2Proof.Machine.eraseSlots c.sector d with op := .ready } (e.done_ok he hc.mem hne)
  have hsub : ∀ a ∈ (e.done c.sector).set, a ∈ d.op.eraseSet := fun a ha => hset ▸ (mem_setRemoveAll.1 ha).1
  refine ⟨fun cause merged => h.eraseSlots hbegun hmem hwrite rfl hsub hok hscan, ?_⟩
  have hhalted := h.eraseSlots (op := .suspended (e.done c.sector) (firstCurrent (e.done c.sector).set) .paint)
    hbegun hmem hwrite rfl hsub hok hscan
  exact hhalted.resume rfl

theorem sectorDone_directoryOK {s : State} (h : DirectoryOK s.dir) : DirectoryOK (Sys2Proof.Machine.sectorDone s).dir := by
  have hop := h.op
  unfold Sys2Proof.Machine.sectorDone
  split
  · next e c heq =>
    rw [heq] at hop
    obtain ⟨hc, hb⟩ := hop
    obtain ⟨hend, hnext⟩ := h.sectorDone hc (by rw [heq]; simp [begunSector, hb]) (by rw [heq]; rfl) (by rw [heq]; rfl)
      (by rw [heq]; simp)
    dsimp only
    split
    · rw [answerAll_dir]; exact hend
    · next hne => exact (hnext (by simpa using hne)).2
  · next e c cause merged heq =>
    rw [heq] at hop
    split
    · next hb =>
      obtain ⟨hend, hnext⟩ := h.sectorDone hop (by rw [heq]; simp [begunSector, hb]) (by rw [heq]; rfl) (by rw [heq]; rfl)
        (by rw [heq]; simp)
      dsimp only
      split
      · rw [answerAll_dir, answerAll_dir]; exact hend
      · next hne => exact (hnext (by simpa using hne)).1 _ _
    · exact h
  · exact h

/-! ### Messages and completions -/

theorem abandonGather_dir {s : State} {e : EraseJob} {window : Nat} (h : s.dir.op = .gathering e window) :
    (abandonGather s).dir = { s.dir with op := .ready } := by
  unfold abandonGather
  rw [h]
  simp [withOp]

theorem DirectoryOK.abandonGather {s : State} {e : EraseJob} {window : Nat} (h : DirectoryOK s.dir)
    (hop : s.dir.op = .gathering e window) : DirectoryOK (Sys2Proof.Machine.abandonGather s).dir := by
  rw [abandonGather_dir hop]
  exact h.withOp _ trivial (by rw [hop]; simp) (by rw [hop]; exact fun a ha => nomatch ha) (by rw [hop]; rfl)
    (fun a ha => nomatch ha)

theorem tryWrite_directoryOK {s : State} {hd : Header} {f : WriteFields} {op : DirOp} (h : DirectoryOK s.dir)
    (hstart : slotState s.dir f.place = .blank → DirectoryOK (startWrite f op s).dir) :
    DirectoryOK (tryWrite hd f op s).dir := by
  unfold tryWrite
  split
  · rw [answer_dir]; exact h
  · split
    · rw [answer_dir]; exact h
    · next hb => exact hstart (by simpa using hb)

/-- A write accepted in READY (R76). -/
theorem tryWrite_ready_directoryOK {s : State} {hd : Header} {f : WriteFields} (h : DirectoryOK s.dir)
    (hf : writeFieldsOK f = true) (hop : s.dir.op = .ready) :
    DirectoryOK (tryWrite hd f (.writing { place := f.place, header := hd }) s).dir := by
  refine tryWrite_directoryOK h fun hblank => startWrite_directoryOK h hf hblank (by rw [hop]; simp) (by rw [hop]; rfl) rfl
    (by rw [hop]; rfl) (by rw [hop]; simp [begunSector]) (by rw [hop]; rfl) fun d' _ hw => hw _ rfl

theorem acceptWrite_directoryOK {s : State} (hd : Header) (f : WriteFields) (h : DirectoryOK s.dir) :
    DirectoryOK (acceptWrite hd f s).dir := by
  have refused (o d : Nat) : DirectoryOK (answer kindWrite hd o d s).dir := by rw [answer_dir]; exact h
  unfold acceptWrite
  split
  · next hf =>
    dsimp only
    split
    · next hop => exact tryWrite_ready_directoryOK h hf hop
    · next e window hop =>
      exact tryWrite_ready_directoryOK (h.abandonGather hop) hf (by rw [abandonGather_dir hop])
    · next e c cause hop =>
      split
      · exact refused _ _
      · next hset =>
        have hset : sectorOf f.place ∉ e.set := by simpa using hset
        have hok := h.op
        rw [hop] at hok
        have hc : CurrentOK s.dir e c := hok
        refine tryWrite_directoryOK h fun hblank => startWrite_directoryOK h hf hblank (by rw [hop]; simp) (by rw [hop]; rfl)
          rfl (by rw [hop]; rfl) ?_ (by rw [hop]; rfl) fun d' hmarks hw => ⟨?_, hw _ rfl, hset⟩
        · rw [hop]
          simp only [begunSector, ne_eq, Option.ite_none_right_eq_some, Option.some.injEq, not_and]
          rintro - hx
          exact hset (hx ▸ hc.mem)
        · obtain ⟨he, hhead, hrem, hb⟩ := hc
          exact ⟨he, hhead, hrem, fun hx => hmarks ▸ hb hx⟩
    all_goals exact refused _ _
  · exact refused _ _

theorem completeWrite_directoryOK {s : State} (verified : Bool) (h : DirectoryOK s.dir) :
    DirectoryOK (completeWrite verified s).dir := by
  have hok := h.op
  unfold completeWrite
  split
  · next w hop =>
    rw [hop] at hok
    exact endWrite_directoryOK h hok (by rw [hop]; simp) (by rw [hop]; rfl) rfl (by rw [hop]; rfl)
      (by rw [hop]; simp [begunSector]) (by rw [hop]; rfl) fun d' _ => trivial
  · next e c cause w hop =>
    rw [hop] at hok
    obtain ⟨hc, hw, hset⟩ := hok
    refine deferredResume_directoryOK (endWrite_directoryOK h hw (by rw [hop]; simp) (by rw [hop]; rfl) rfl
      (by rw [hop]; rfl) ?_ (by rw [hop]; rfl) fun d' hmarks => ?_)
    · rw [hop]
      simp only [begunSector, ne_eq, Option.ite_none_right_eq_some, Option.some.injEq, not_and]
      rintro - hx
      exact hset (hx ▸ hc.mem)
    · obtain ⟨he, hhead, hrem, hb⟩ := hc
      exact ⟨he, hhead, hrem, fun hx => hmarks ▸ hb hx⟩
  · exact h

/-- In a sector that passes the check of references every count is 0 (R78). -/
theorem unreferenced_of_lowest {d : Directory} {sector p : Nat} (h : lowestReferenced d sector = none)
    (hp : sectorOf p = sector) : cellGet 0 d.counts p = 0 := by
  unfold lowestReferenced at h
  rw [Option.map_eq_none_iff, List.find?_eq_none] at h
  generalize d.counts = m at h
  induction m with
  | nil => rfl
  | cons c r ih =>
    obtain ⟨b, v⟩ := c
    unfold cellGet
    split
    · next hb =>
      have := h (b, v) (by simp)
      simp only [← hb, hp, decide_true, Bool.true_and, decide_eq_true_eq] at this
      omega
    · exact ih fun x hx => h x (List.mem_cons_of_mem _ hx)

/-- A sector that is neither locked nor referenced joins the erase (R78). -/
theorem DirectoryOK.gather {d : Directory} {e : EraseJob} {sector window : Nat} (h : DirectoryOK d)
    (hop : d.op = .ready ∧ e = { set := [], joined := [], erased := [] } ∨ ∃ w, d.op = .gathering e w)
    (hsector : sector < 8) (hlock : sector ∉ d.locks) (hfree : lowestReferenced d sector = none) (hd : Header)
    (hjoin : e.joined.length < 16) (hwindow : window ≤ 40) :
    DirectoryOK { d with
      op := .gathering { e with joined := e.joined ++ [hd], set := setInsert sector e.set } window } := by
  have hok := h.op
  have hparts : SetBelow 8 e.set ∧ e.erased = [] ∧ d.op.eraseSet = e.set ∧ writingSlot d.op = none ∧ d.op ≠ .scanning ∧
      begunSector d.op = none := by
    rcases hop with ⟨hop, rfl⟩ | ⟨w, hop⟩
    · rw [hop]; exact ⟨⟨List.Pairwise.nil, fun a ha => nomatch ha⟩, rfl, rfl, rfl, by simp, rfl⟩
    · rw [hop] at hok ⊢
      obtain ⟨⟨hset, -⟩, herased, -⟩ := hok
      exact ⟨hset, herased, rfl, rfl, by simp, rfl⟩
  obtain ⟨hset, herased, heset, hwrite, hscan, hbegun⟩ := hparts
  refine ⟨h.storage, h.states, h.marks, h.flags, h.locks, ⟨⟨setInsert_below hset hsector, ?_, ?_, ?_, ?_⟩, herased, hwindow⟩,
    fun _ p hp _ => ?_, fun a ha => ?_, fun p hp hc => ?_⟩
  · intro (hx : setInsert sector e.set = [])
    have : sector ∈ setInsert sector e.set := mem_setInsert.2 (.inl rfl)
    rw [hx] at this
    cases this
  · rw [herased]; exact ⟨List.Pairwise.nil, fun a ha => nomatch ha⟩
  · rw [herased]; exact fun a ha => nomatch ha
  · simp only [List.length_append, List.length_singleton]; omega
  · have hread := h.reads hscan p hp (by rw [hbegun]; simp)
    rw [hwrite] at hread
    exact hread
  · rcases mem_setInsert.1 ha with rfl | ha
    · exact hlock
    · exact h.unlocked a (heset ▸ ha)
  · obtain ⟨hs, hv⟩ := h.used p hp hc
    refine ⟨fun ha => ?_, hv⟩
    rcases mem_setInsert.1 ha with hx | ha
    · exact absurd (unreferenced_of_lowest hfree hx) (Nat.ne_of_gt hc)
    · exact hs (heset ▸ ha)

theorem tryErase_directoryOK {s : State} {hd : Header} {sector window : Nat} {e : EraseJob} (h : DirectoryOK s.dir)
    (hop : s.dir.op = .ready ∧ e = { set := [], joined := [], erased := [] } ∨ ∃ w, s.dir.op = .gathering e w)
    (hsame : ∀ a ∈ e.set, s.dir.op = .gathering e window) (hsector : sector < 8) :
    DirectoryOK (tryErase hd sector e window s).dir := by
  have refused (o d : Nat) : DirectoryOK (answer kindErase hd o d s).dir := by rw [answer_dir]; exact h
  unfold tryErase
  split
  · exact refused _ _
  · next hlock =>
    split
    · exact refused _ _
    · next hfree =>
      unfold joinErase joinLimit
      split
      · exact refused _ _
      · next hjoin =>
        split
        · next hin =>
          have hg := hsame sector (by simpa using hin)
          have hok := h.op
          rw [hg] at hok
          obtain ⟨⟨hset, hne, herased, hdis, -⟩, hnone, hwin⟩ := hok
          refine h.withOp _ ⟨⟨hset, hne, herased, hdis, ?_⟩, hnone, hwin⟩ (by rw [hg]; simp) (by rw [hg]; exact fun a ha => ha)
            (by rw [hg]; rfl) (by rw [hg]; exact fun a ha => ha)
          simp only [List.length_append, List.length_singleton]
          omega
        · exact h.gather hop hsector (by simpa using hlock) hfree hd (by omega) (le_refl _)

theorem acceptErase_directoryOK {s : State} (hd : Header) (sector : Nat) (h : DirectoryOK s.dir) :
    DirectoryOK (acceptErase hd sector s).dir := by
  have refused (o d : Nat) : DirectoryOK (answer kindErase hd o d s).dir := by rw [answer_dir]; exact h
  unfold acceptErase
  split
  · next hs =>
    split
    · next hop => exact tryErase_directoryOK h (.inl ⟨hop, rfl⟩) (fun a ha => nomatch ha) hs
    · next e window hop => exact tryErase_directoryOK h (.inr ⟨window, hop⟩) (fun _ _ => hop) hs
    all_goals exact refused _ _
  · exact refused _ _

theorem gatherExpiry_directoryOK {s : State} (h : DirectoryOK s.dir) : DirectoryOK (gatherExpiry s).dir := by
  have hok := h.op
  unfold gatherExpiry
  split
  · next e window hop =>
    rw [hop] at hok
    obtain ⟨he, -⟩ := hok
    exact enterErasing_directoryOK (h.startErasing (firstCurrent_ok _ he) (by rw [hop]; rfl) (by rw [hop]; rfl)
      (by rw [hop]; simp) (by rw [hop]; exact fun a ha => nomatch ha))
  · exact h

theorem acceptSuspend_directoryOK {s : State} (hd : Header) (h : DirectoryOK s.dir) :
    DirectoryOK (acceptSuspend hd s).dir := by
  have hok := h.op
  have refused (o d : Nat) : DirectoryOK (answer kindSuspend hd o d s).dir := by rw [answer_dir]; exact h
  unfold acceptSuspend
  split
  · next e c hop => exact h.haltErasing hop _ _
  · next e c cause merged hop =>
    rw [hop] at hok
    exact h.withOp _ hok (by rw [hop]; simp) (by rw [hop]; exact fun a ha => ha) (by rw [hop]; rfl)
      (by rw [hop]; exact fun a ha => ha)
  · next e c cause hop =>
    rw [hop] at hok
    rw [answer_dir]
    exact h.withOp _ hok (by rw [hop]; simp) (by rw [hop]; exact fun a ha => ha) (by rw [hop]; rfl)
      (by rw [hop]; exact fun a ha => ha)
  · next e c cause w hop =>
    rw [hop] at hok
    rw [answer_dir]
    exact h.withOp _ hok (by rw [hop]; simp) (by rw [hop]; exact fun a ha => ha) (by rw [hop]; rfl)
      (by rw [hop]; exact fun a ha => ha)
  · next e window hop =>
    rw [hop] at hok
    obtain ⟨he, -⟩ := hok
    rw [answer_dir]
    exact h.withOp (.suspended e (firstCurrent e.set) .commanded) (firstCurrent_ok s.dir he) (by rw [hop]; simp)
      (by rw [hop]; exact fun a ha => nomatch ha) (by rw [hop]; rfl) (by rw [hop]; exact fun a ha => ha)
  all_goals exact refused _ _

theorem suspensionDone_directoryOK {s : State} (h : DirectoryOK s.dir) : DirectoryOK (suspensionDone s).dir := by
  have hok := h.op
  unfold suspensionDone
  split
  · next e c cause merged hop =>
    rw [hop] at hok
    refine deferredResume_directoryOK ?_
    rw [answerAll_dir]
    exact h.withOp (.suspended e c cause) hok (by rw [hop]; simp) (by rw [hop]; exact fun a ha => ha) (by rw [hop]; rfl)
      (by rw [hop]; exact fun a ha => ha)
  · exact h

theorem acceptResume_directoryOK {s : State} (hd : Header) (h : DirectoryOK s.dir) : DirectoryOK (acceptResume hd s).dir := by
  have refused (o d : Nat) : DirectoryOK (answer kindResume hd o d s).dir := by rw [answer_dir]; exact h
  unfold acceptResume
  split
  · next e c hop => rw [answer_dir]; exact enterErasing_directoryOK (h.resume hop)
  all_goals exact refused _ _

/-! ### Locks -/

theorem DirectoryOK.startLock {s : State} (h : DirectoryOK s.dir) (hop : s.dir.op = .ready) (kind : Byte) (hd : Header)
    {target : List Nat} (ht : SetBelow 8 target) : DirectoryOK (Sys2Proof.Machine.startLock kind hd target s).dir :=
  h.withOp (.locking { target := target, kind := kind, header := hd, remaining := lockMs }) ⟨ht, le_refl _⟩
    (by rw [hop]; simp) (by rw [hop]; exact fun a ha => nomatch ha) (by rw [hop]; rfl) (fun a ha => nomatch ha)

theorem tryLock_directoryOK {s : State} (kind : Byte) (hd : Header) {target : List Nat} (h : DirectoryOK s.dir)
    (ht : SetBelow 8 target) : DirectoryOK (tryLock kind hd target s).dir := by
  have refused (o d : Nat) : DirectoryOK (answer kind hd o d s).dir := by rw [answer_dir]; exact h
  unfold tryLock
  split
  · next hop => exact h.startLock hop kind hd ht
  · next e window hop => exact (h.abandonGather hop).startLock (by rw [abandonGather_dir hop]) kind hd ht
  all_goals exact refused _ _

theorem acceptLock_directoryOK {s : State} (hd : Header) (sectors : Byte) (h : DirectoryOK s.dir) :
    DirectoryOK (acceptLock hd sectors s).dir := by
  unfold acceptLock
  split
  · rw [answer_dir]; exact h
  · exact tryLock_directoryOK _ _ h (setInsertAll_below h.locks fun a ha => ((mem_setOfMask _ _).1 ha).1)

theorem acceptFree_directoryOK {s : State} (hd : Header) (sectors : Byte) (h : DirectoryOK s.dir) :
    DirectoryOK (acceptFree hd sectors s).dir := by
  unfold acceptFree
  split
  · rw [answer_dir]; exact h
  · split
    · exact tryLock_directoryOK _ _ h (setRemoveAll_below h.locks)
    · rw [answer_dir]; exact h

theorem lockDone_directoryOK {s : State} (h : DirectoryOK s.dir) : DirectoryOK (lockDone s).dir := by
  have hok := h.op
  unfold lockDone
  split
  · next l hop =>
    rw [hop] at hok
    obtain ⟨ht, -⟩ := hok
    rw [answer_dir]
    have hready := h.withOp .ready trivial (by rw [hop]; simp) (by rw [hop]; exact fun a ha => nomatch ha)
      (by rw [hop]; rfl) (fun a ha => nomatch ha)
    exact ⟨h.storage, h.states, h.marks, ht, ht, trivial, hready.reads, (fun a ha => nomatch ha), hready.used⟩
  · exact h

/-! ### The scan and the resets -/

/-- The states the marks of the listed slots give (R93). -/
def statesByMarks (storage : List (Nat × StoredSlot)) : List (Nat × SlotState) :=
  (storage.map (fun c => (c.1, scannedState c.2))).filter (fun c => decide (c.2 ≠ .blank))

theorem statesByMarks_canonical {lo : Nat} {m : List (Nat × StoredSlot)}
    (h : cellsFrom StoredSlot.erased 1024 lo m = true) : cellsFrom .blank 1024 lo (statesByMarks m) = true := by
  induction m generalizing lo with
  | nil => rfl
  | cons c r ih =>
    obtain ⟨a, slot⟩ := c
    obtain ⟨hlo, hhi, -, hr⟩ := cellsFrom_cons.1 h
    by_cases hb : scannedState slot = .blank
    · have : statesByMarks ((a, slot) :: r) = statesByMarks r := by simp [statesByMarks, hb]
      rw [this]
      exact cellsFrom_mono (by omega) (ih hr)
    · have : statesByMarks ((a, slot) :: r) = (a, scannedState slot) :: statesByMarks r := by simp [statesByMarks, hb]
      rw [this]
      exact cellsFrom_cons.2 ⟨hlo, hhi, hb, ih hr⟩

theorem cellGet_statesByMarks {lo : Nat} {m : List (Nat × StoredSlot)} (h : cellsFrom StoredSlot.erased 1024 lo m = true)
    (p : Nat) : cellGet .blank (statesByMarks m) p = scannedState (cellGet StoredSlot.erased m p) := by
  induction m generalizing lo with
  | nil => rfl
  | cons c r ih =>
    obtain ⟨a, slot⟩ := c
    obtain ⟨hlo, hhi, -, hr⟩ := cellsFrom_cons.1 h
    have ih := ih hr
    by_cases hb : scannedState slot = .blank
    · have hskip : statesByMarks ((a, slot) :: r) = statesByMarks r := by simp [statesByMarks, hb]
      rw [hskip, ih]
      show _ = scannedState (if p = a then slot else cellGet StoredSlot.erased r p)
      split
      · next hpa =>
        rw [hb, cellGet_below hr (by omega)]
        rfl
      · rfl
    · have hkeep : statesByMarks ((a, slot) :: r) = (a, scannedState slot) :: statesByMarks r := by simp [statesByMarks, hb]
      rw [hkeep]
      show (if p = a then scannedState slot else cellGet .blank (statesByMarks r) p) =
        scannedState (if p = a then slot else cellGet StoredSlot.erased r p)
      split
      · rfl
      · exact ih

/-- Whole sectors set to one state, one after another (R93). -/
theorem fillSectors {sectors : List Nat} {m : List (Nat × SlotState)} {v : SlotState}
    (h : cellsFrom .blank 1024 0 m = true) (hs : ∀ a ∈ sectors, a < 8) :
    cellsFrom .blank 1024 0 (sectors.foldl (fun acc a => cellFill .blank (128 * a) 128 v acc) m) = true ∧
    ∀ p, cellGet .blank (sectors.foldl (fun acc a => cellFill .blank (128 * a) 128 v acc) m) p =
      if sectorOf p ∈ sectors then v else cellGet .blank m p := by
  induction sectors generalizing m with
  | nil => exact ⟨h, fun p => by simp⟩
  | cons a r ih =>
    have ha : 128 * a + 128 ≤ 1024 := by have := hs a (by simp); omega
    have hfill := cellFill_canonical (v := v) h (Nat.zero_le (128 * a)) ha
    have hread := cellGet_cellFill (v := v) h (Nat.zero_le (128 * a)) ha
    rw [List.foldl_cons]
    generalize cellFill .blank (128 * a) 128 v m = m' at hfill hread ⊢
    obtain ⟨hcan, hget⟩ := ih hfill fun b hb => hs b (by simp [hb])
    refine ⟨hcan, fun p => ?_⟩
    rw [hget, hread]
    by_cases hpr : sectorOf p ∈ r
    · simp [hpr]
    · simp only [List.mem_cons, hpr, if_false, or_false, sectorOf_eq_iff]

theorem scannedStates_eq (d : Directory) : scannedStates d =
    d.eraseMarks.foldl (fun acc a => cellFill .blank (128 * a) 128 .defective acc) (statesByMarks d.storage) := rfl

/-- The scan gives each slot the state its marks say (R93). -/
theorem cellGet_scannedStates {d : Directory} (hs : cellsFrom StoredSlot.erased 1024 0 d.storage = true)
    (hm : SetBelow 8 d.eraseMarks) (p : Nat) : cellGet .blank (scannedStates d) p = markedState d p := by
  rw [scannedStates_eq, (fillSectors (statesByMarks_canonical hs) hm.2).2 p, cellGet_statesByMarks hs]
  rfl

/-- A directory with nothing counted has no referenced place. -/
theorem cellGet_uncounted {d : Directory} (h : d.counts = []) (p : Nat) : ¬ 0 < cellGet 0 d.counts p := by
  rw [h]; exact Nat.lt_irrefl 0

theorem scanDone_directoryOK {s : State} (h : DirectoryOK s.dir) : DirectoryOK (scanDone s).dir := by
  have hok := h.op
  unfold scanDone
  split
  · next hop =>
    rw [hop] at hok
    have hc : s.dir.counts = [] := hok
    have hdir (u : State) (f : FeedReceiver) : (if u.feed.held then u.withFeed f else u).dir = u.dir := by
      split <;> rfl
    dsimp only
    rw [hdir]
    refine ⟨h.storage, (fillSectors (statesByMarks_canonical h.storage) h.marks.2).1, h.marks, h.flags, h.flags, trivial,
      fun _ p _ _ => ?_, (fun a ha => nomatch ha), fun p _ hx => absurd hx (cellGet_uncounted hc p)⟩
    exact cellGet_scannedStates h.storage h.marks p
  · exact h

/-- The lock flags a reset leaves in storage (R74, R92). -/
theorem cutStorage_flags {d : Directory} (takesNew : Bool) (h : DirectoryOK d) : SetBelow 8 (cutStorage takesNew d).lockFlags := by
  have hok := h.op
  unfold cutStorage
  split
  · next l hop =>
    rw [hop] at hok
    obtain ⟨ht, -⟩ := hok
    dsimp only
    split
    · exact ht
    · exact h.flags
  · exact h.flags

theorem cutStorage_same (takesNew : Bool) (d : Directory) :
    (cutStorage takesNew d).storage = d.storage ∧ (cutStorage takesNew d).eraseMarks = d.eraseMarks ∧
      (cutStorage takesNew d).locks = d.locks := by
  unfold cutStorage
  split <;> exact ⟨rfl, rfl, rfl⟩

/-- A directory that scans, with nothing counted, is in order when its tables and sets are. -/
theorem directoryOK_scanning {d : Directory} (hop : d.op = .scanning) (hc : d.counts = [])
    (hst : cellsFrom StoredSlot.erased 1024 0 d.storage = true) (hss : cellsFrom .blank 1024 0 d.slotStates = true)
    (hm : SetBelow 8 d.eraseMarks) (hf : SetBelow 8 d.lockFlags) (hl : SetBelow 8 d.locks) : DirectoryOK d :=
  ⟨hst, hss, hm, hf, hl, by rw [hop]; exact hc, fun hn => absurd hop hn, (fun _ ha => by rw [hop] at ha; cases ha),
    fun p _ hx => absurd hx (cellGet_uncounted hc p)⟩

theorem setBelow_nil (n : Nat) : SetBelow n [] := ⟨List.Pairwise.nil, fun _ ha => nomatch ha⟩

theorem directoryReset_directoryOK {d : Directory} (takesNew : Bool) (h : DirectoryOK d) :
    DirectoryOK (directoryReset takesNew d) := by
  obtain ⟨hst, hm, -⟩ := cutStorage_same takesNew d
  exact directoryOK_scanning rfl rfl (hst ▸ h.storage) rfl (hm ▸ h.marks) (cutStorage_flags takesNew h) (setBelow_nil 8)

theorem DirectoryOK.writing_lt {d : Directory} (h : DirectoryOK d) {place : Nat} (hw : writingSlot d.op = some place) :
    place < 1024 := by
  have hok := h.op
  cases hop : d.op with
  | writing w =>
    rw [hop] at hok hw
    obtain ⟨hp, -⟩ := hok
    cases hw
    exact hp
  | suspendedWriting e c cause w =>
    rw [hop] at hok hw
    obtain ⟨-, ⟨hp, -⟩, -⟩ := hok
    cases hw
    exact hp
  | _ => rw [hop] at hw; cases hw

theorem DirectoryOK.begun_lt {d : Directory} (h : DirectoryOK d) {sector : Nat} (hb : begunSector d.op = some sector) :
    sector < 8 := by
  have hok := h.op
  have hcur (e : EraseJob) (c : Current) (hc : CurrentOK d e c) (hx : (if c.begun then some c.sector else none) = some sector) :
      sector < 8 := by
    simp only [Option.ite_none_right_eq_some, Option.some.injEq] at hx
    exact hx.2 ▸ hc.sector_lt
  cases hop : d.op with
  | erasing e c => rw [hop] at hok hb; exact hcur e c hok.1 hb
  | suspending e c cause merged => rw [hop] at hok hb; exact hcur e c hok hb
  | suspended e c cause => rw [hop] at hok hb; exact hcur e c hok hb
  | suspendedWriting e c cause w => rw [hop] at hok hb; exact hcur e c hok.1 hb
  | _ => rw [hop] at hb; cases hb

theorem cutStates_canonical {d : Directory} (h : DirectoryOK d) : cellsFrom .blank 1024 0 (cutStates d) = true := by
  have hwrite : cellsFrom .blank 1024 0 (match writingSlot d.op with
      | some place => cellSet .blank d.slotStates place .defective
      | none => d.slotStates) = true := by
    split
    · next place hw => exact cellSet_canonical h.states (Nat.zero_le _) (h.writing_lt hw)
    · exact h.states
  unfold cutStates
  dsimp only
  split
  · next sector hb =>
    have := h.begun_lt hb
    exact cellFill_canonical hwrite (Nat.zero_le _) (by omega)
  · exact hwrite

theorem directoryRestart_directoryOK {d : Directory} (takesNew : Bool) (h : DirectoryOK d) :
    DirectoryOK (directoryRestart takesNew d) := by
  obtain ⟨hst, hm, hl⟩ := cutStorage_same takesNew d
  exact directoryOK_scanning rfl rfl (hst ▸ h.storage) (cutStates_canonical h) (hm ▸ h.marks) (cutStorage_flags takesNew h)
    (hl ▸ h.locks)

/-! ### The events of the directory -/

theorem DirectoryEvent.directoryOK {s t : State} (he : DirectoryEvent s t) (h : DirectoryOK s.dir) : DirectoryOK t.dir := by
  cases he with
  | write hd f => exact acceptWrite_directoryOK hd f h
  | written v => exact completeWrite_directoryOK v h
  | erase hd sector => exact acceptErase_directoryOK hd sector h
  | gathered => exact gatherExpiry_directoryOK h
  | erased => exact sectorDone_directoryOK h
  | suspend hd => exact acceptSuspend_directoryOK hd h
  | suspended => exact suspensionDone_directoryOK h
  | resume hd => exact acceptResume_directoryOK hd h
  | lock hd sectors => exact acceptLock_directoryOK hd sectors h
  | free hd sectors => exact acceptFree_directoryOK hd sectors h
  | locked => exact lockDone_directoryOK h
  | scanned => exact scanDone_directoryOK h

/-! ### The events of the table -/

/-- Every reference of a table was held before or names a usable place (R10, R14). -/
def ReferencesFrom (s t : State) : Prop :=
  ∀ r ∈ t.records, (∃ q ∈ s.records, referencesOf r = referencesOf q) ∨ ∀ p ∈ referencesOf r, PlaceUsable s p

theorem ReferencesFrom.refl (s : State) : ReferencesFrom s s := fun r hr => .inl ⟨r, hr, rfl⟩

theorem ReferencesFrom.of_slots {s t : State} (h : t.table.slots = s.table.slots) : ReferencesFrom s t := by
  intro r hr
  unfold State.records at hr
  rw [h] at hr
  exact .inl ⟨r, hr, rfl⟩

theorem Beside.referencesFrom {s t : State} (h : Beside s t) : ReferencesFrom s t := by
  obtain ⟨-, -, -, htab, -⟩ := h
  exact .of_slots (by rw [htab])

theorem placeUsable_congr {s t : State} (h : TableFrame s t) (p : Nat) : PlaceUsable t p ↔ PlaceUsable s p := by
  obtain ⟨-, -, -, hd⟩ := h
  unfold PlaceUsable slotState
  rw [hd]

theorem ReferencesFrom.trans {s t u : State} (h : ReferencesFrom s t) (hf : TableFrame s t) (g : ReferencesFrom t u) :
    ReferencesFrom s u := by
  intro r hr
  rcases g r hr with ⟨q, hq, he⟩ | hp
  · rw [he]; exact h q hq
  · exact .inr fun p hm => (placeUsable_congr hf p).1 (hp p hm)

theorem ReferencesFrom.answer {s t : State} (h : ReferencesFrom s t) (kind : Byte) (hd : Header) (o d : Nat) :
    ReferencesFrom s (Sys2Proof.Machine.answer kind hd o d t) := by
  unfold ReferencesFrom State.records at h ⊢
  rwa [answer_table]

theorem answer_referencesFrom (kind : Byte) (hd : Header) (o d : Nat) (s : State) :
    ReferencesFrom s (answer kind hd o d s) := (answer_beside _ _ _ _ _).referencesFrom

theorem sweep_referencesFrom (s : State) : ReferencesFrom s (sweep s) := by
  intro r hr
  have hr : r ∈ recordsOf (keepLive s.table.slots) := hr
  rw [recordsOf_keepLive] at hr
  exact .inl ⟨r, List.mem_of_mem_filter hr, rfl⟩

theorem mapRecords_referencesFrom {s t : State} {g : Record → Record}
    (hg : ∀ r, referencesOf (g r) = referencesOf r ∨ ∀ p ∈ referencesOf (g r), PlaceUsable s p)
    (hsl : t.table.slots = mapRecords g s.table.slots) : ReferencesFrom s t := by
  intro r hr
  unfold State.records at hr
  rw [hsl, recordsOf_mapRecords] at hr
  obtain ⟨q, hq, rfl⟩ := List.mem_map.1 hr
  exact (hg q).imp (fun he => ⟨q, hq, he⟩) id

theorem mapRecord_referencesFrom {s t : State} (key : Nat) {g : Record → Record}
    (hg : ∀ r, referencesOf (g r) = referencesOf r ∨ ∀ p ∈ referencesOf (g r), PlaceUsable s p)
    (hsl : t.table.slots = mapRecord key g s.table.slots) : ReferencesFrom s t := by
  refine mapRecords_referencesFrom (g := fun r => if r.key = key then g r else r) (fun r => ?_) hsl
  split
  · exact hg r
  · exact .inl rfl

/-- A place check that finds nothing wrong says every place usable (R10). -/
theorem usable_of_firstBadPlace {s : State} {places : List Nat} (h : firstBadPlace s.dir places = none) :
    ∀ p ∈ places, PlaceUsable s p := by
  induction places with
  | nil => exact fun p hp => nomatch hp
  | cons q rest ih =>
    unfold firstBadPlace at h
    split at h
    · next hq =>
      intro p hp
      rcases List.mem_cons.1 hp with rfl | hp
      · unfold askPlace at hq
        split_ifs at hq with h1 h2 h3
        exact ⟨h1, by simpa using h2, h3⟩
      · exact ih h p hp
    all_goals cases h

theorem createRecord_referencesFrom {s : State} {new : Record} {slots : List (Option Record)}
    (hins : insertRecord new s.table.slots = some slots) (hnew : ∀ p ∈ referencesOf new, PlaceUsable s p) :
    ReferencesFrom s (createRecord new slots s) := by
  obtain ⟨i, hi, rfl⟩ := insertRecord_some hins
  intro r hr
  rcases List.mem_cons.1 ((recordsOf_set new hi).mem_iff.1 hr) with rfl | hr
  · exact .inr hnew
  · exact .inl ⟨r, hr, rfl⟩

theorem acceptPost_referencesFrom (hd : Header) (f : PostFields) (s : State) : ReferencesFrom s (acceptPost hd f s) := by
  have refused (o d : Nat) : ReferencesFrom s (answer kindPost hd o d s) := answer_referencesFrom _ _ _ _ _
  unfold acceptPost
  split
  · dsimp only
    split
    · split
      · exact refused _ _
      · next hplaces =>
        have husable := usable_of_firstBadPlace hplaces
        unfold postCreate
        dsimp only
        split
        · next slots hins => exact (createRecord_referencesFrom hins husable).answer _ _ _ _
        · split
          · exact refused _ _
          · split
            · next slots hins =>
              refine ((sweep_referencesFrom s).trans (sweep_tableFrame s) ?_).answer _ _ _ _
              exact createRecord_referencesFrom hins fun p hp => (placeUsable_congr (sweep_tableFrame s) p).2 (husable p hp)
            · exact (sweep_referencesFrom s).answer _ _ _ _
    · split
      · exact refused _ _
      · exact refused _ _
      · split
        · exact refused _ _
        · next hplaces =>
          have husable := usable_of_firstBadPlace hplaces
          exact ReferencesFrom.answer (mapRecord_referencesFrom (g := fun _ => postRecord f) (t := replaceRecord _ _ s) _
            (fun _ => .inr husable) rfl)
            _ _ _ _
  · exact refused _ _

theorem acceptAmend_referencesFrom (hd : Header) (f : AmendFields) (s : State) : ReferencesFrom s (acceptAmend hd f s) := by
  have refused (o d : Nat) : ReferencesFrom s (answer kindAmend hd o d s) := answer_referencesFrom _ _ _ _ _
  unfold acceptAmend
  split
  · split
    · exact refused _ _
    · split
      · exact refused _ _
      · split
        · exact refused _ _
        · exact refused _ _
        · split
          · exact ReferencesFrom.answer (mapRecord_referencesFrom (t := retable _ s) _
              (fun r => .inl (referencesOf_amendRecord f r)) rfl) _ _ _ _
          · exact refused _ _
  · exact refused _ _

theorem sweepAtZero_referencesFrom (left : Bool) (s : State) : ReferencesFrom s (sweepAtZero left s) := by
  unfold sweepAtZero
  split
  · exact sweep_referencesFrom s
  · exact .refl s

theorem retireRecord_referencesFrom (key : Nat) (s : State) : ReferencesFrom s (retireRecord key s) := by
  have h : ReferencesFrom s (retable (mapRecord key (Record.leave .retired) (touchWindow s).table.slots) (touchWindow s)) :=
    mapRecord_referencesFrom (g := Record.leave .retired) key (fun _ => .inl rfl) (by rw [retable_table, touchWindow_slots])
  exact h.trans ((touchWindow_tableFrame s).trans (retable_tableFrame _ _)) (sweepAtZero_referencesFrom _ _)

theorem acceptRetire_referencesFrom (hd : Header) (key : Nat) (s : State) : ReferencesFrom s (acceptRetire hd key s) := by
  unfold acceptRetire
  split
  · split
    · exact answer_referencesFrom _ _ _ _ _
    · refine ReferencesFrom.answer ?_ _ _ _ _
      split
      · exact retireRecord_referencesFrom key s
      · exact .refl s
  · exact answer_referencesFrom _ _ _ _ _

theorem passOrigin_referencesFrom (p : OriginPassage) (s : State) : ReferencesFrom s (passOrigin p s).1 := by
  cases p with
  | no => exact .refl s
  | backward => exact .of_slots rfl
  | forward =>
    unfold passOrigin
    dsimp only
    split
    · exact .of_slots rfl
    · rw [rollover_eq]
      exact mapRecords_referencesFrom (fun r => .inl (rollRecord_references r)) rfl

theorem ageTable_referencesFrom (s : State) : ReferencesFrom s (ageTable s).1 := by
  rw [ageTable_eq]
  refine mapRecords_referencesFrom (fun r => .inl ?_) rfl
  unfold ageRecord
  split <;> rfl

theorem timeStages_referencesFrom (p : OriginPassage) (s : State) : ReferencesFrom s (timeStages p s) := by
  have hage := ((passOrigin_referencesFrom p s).trans (passOrigin_tableFrame p s)
    ((recomputeNow_beside _).referencesFrom.trans (recomputeNow_beside _).tableFrame (ageTable_referencesFrom _)))
  have hframe := (passOrigin_tableFrame p s).trans ((recomputeNow_beside _).tableFrame.trans (ageTable_tableFrame _))
  exact hage.trans hframe ((sweepAtZero_referencesFrom _ _).trans (sweepAtZero_tableFrame _ _)
    (repaintRequests_beside _).referencesFrom)

theorem TableEvent.referencesFrom {s t : State} (he : TableEvent s t) : ReferencesFrom s t := by
  cases he with
  | post hd f => exact acceptPost_referencesFrom hd f s
  | amend hd f => exact acceptAmend_referencesFrom hd f s
  | retire hd key => exact acceptRetire_referencesFrom hd key s
  | clear hd =>
    intro r hr
    unfold State.records at hr
    rw [acceptClear_table, recordsOf_replicate_none] at hr
    cases hr
  | expiry =>
    unfold windowExpiry
    split
    · exact .refl s
    · exact sweep_referencesFrom s
  | stages p => exact timeStages_referencesFrom p s

/-- A table event changes the counts alone, and a place that it leaves referenced was referenced before or was usable. -/
theorem DirectoryOK.tableEvent {s t : State} (h : DirectoryOK s.dir) (hs : TableInv s) (ht : TableInv t)
    (hf : TableFrame s t) (hr : ReferencesFrom s t) : DirectoryOK t.dir := by
  obtain ⟨-, -, -, -, -, hcs⟩ := hs
  obtain ⟨-, -, -, -, hcan, hct⟩ := ht
  obtain ⟨-, -, -, hd⟩ := hf
  have key : ∀ p < 1024, 0 < cellGet 0 t.dir.counts p → 0 < cellGet 0 s.dir.counts p ∨ PlaceUsable s p := by
    intro p hp hc
    rw [hct p hp, references_eq, List.count_pos_iff, mem_placesOf] at hc
    obtain ⟨r, hm, hpr⟩ := hc
    rcases hr r hm with ⟨q, hq, he⟩ | hu
    · left
      rw [hcs p hp, references_eq, List.count_pos_iff, mem_placesOf]
      exact ⟨q, hq, he ▸ hpr⟩
    · exact .inr (hu p hpr)
  generalize t.dir.counts = c at *
  rw [hd]
  refine ⟨h.storage, h.states, h.marks, h.flags, h.locks, ?_, h.reads, h.unlocked, fun p hp hc => ?_⟩
  · have hop := h.op
    show OpOK { s.dir with counts := c } s.dir.op
    cases hcase : s.dir.op with
    | scanning =>
      rw [hcase] at hop
      have hzero : ∀ p < 1024, cellGet 0 c p = 0 := by
        intro p hp
        by_contra hne
        rcases key p hp (Nat.pos_of_ne_zero hne) with hx | ⟨hx, -⟩
        · exact cellGet_uncounted hop p hx
        · exact hx hcase
      refine cells_ext hcan (by rfl : cellsFrom 0 1024 0 [] = true) fun p => ?_
      by_cases hp : p < 1024
      · exact hzero p hp
      · exact cellGet_above hcan (by omega)
    | _ => rw [hcase] at hop; exact hop
  · rcases key p hp hc with hx | ⟨-, hset, hv⟩
    · exact h.used p hp hx
    · exact ⟨hset, hv⟩

/-! ### Every step -/

theorem acceptSetBoard_directoryOK {s : State} (hd : Header) (f : BoardFields) (h : DirectoryOK s.dir) :
    DirectoryOK (acceptSetBoard hd f s).dir := by
  have hfilter (new : Settings) : (withFilterApplied new s).dir = s.dir := by
    unfold withFilterApplied; split <;> rfl
  have applied (new : Settings) : DirectoryOK (applySettings new s).dir := by
    have hauto (u : State) (hu : u.dir = s.dir) : DirectoryOK (applyAutoSuspend u).dir := by
      have hu : DirectoryOK u.dir := hu ▸ h
      unfold applyAutoSuspend
      split_ifs
      · exact directoryRaise_directoryOK hu
      · exact hu
      · exact directoryWithdraw_directoryOK hu
    unfold applySettings
    dsimp only
    have hdir (u : State) (b : Beside (withFilterApplied new s) u) : u.dir = s.dir := by
      obtain ⟨-, -, -, -, hx⟩ := b
      rw [hx, hfilter]
    generalize hu : (if new.holdover ≠ s.settings.holdover then applyHoldover _ else _ : State) = u
    have hb : Beside (withFilterApplied new s) u := by
      rw [← hu]
      refine Beside.trans ?_ (beside_ite (applyHoldover_beside _) (.refl _))
      exact Beside.trans (.refl _) (beside_ite (applyOrigin_beside _) (.refl _))
    have hA : DirectoryOK (if new.autoSuspend ≠ s.settings.autoSuspend then applyAutoSuspend u else u).dir := by
      split
      · exact hauto u (hdir u hb)
      · rw [hdir u hb]; exact h
    split
    · exact hA
    · exact hA
  unfold acceptSetBoard
  dsimp only
  split_ifs <;> rw [answer_dir]
  · exact h
  · exact h
  · exact applied _
  · exact applied _

theorem Change.directoryInv {s t : State} (hc : Change s t) (h : TableInv s ∧ DirectoryInv s) :
    TableInv t ∧ DirectoryInv t := by
  obtain ⟨htab, hdir⟩ := h
  refine ⟨hc.tableInv htab, ?_⟩
  rw [directoryInv_iff] at hdir ⊢
  cases hc with
  | beside hb =>
    obtain ⟨-, -, -, -, hd⟩ := hb
    rw [hd]; exact hdir
  | settle => exact settle_directoryOK hdir
  | table he => exact hdir.tableEvent htab (he.tableInv htab) he.tableFrame he.referencesFrom
  | directory he => exact he.directoryOK hdir
  | setBoard hd f => exact acceptSetBoard_directoryOK hd f hdir
  | restart =>
    obtain ⟨-, -, -, -, hd⟩ := acceptRestart_blocks s
    rw [hd]
    exact directoryRestart_directoryOK _ hdir

/-- The timers of the operation state move on within their bounds (R74, R79, R81, R84). -/
theorem advanceTimers_directoryOK {s : State} (h : DirectoryOK s.dir) : DirectoryOK (advanceTimers s).dir := by
  have hop := h.op
  show DirectoryOK { s.dir with op := advanceOp s.dir.op }
  cases hcase : s.dir.op with
  | locking l =>
    rw [hcase] at hop
    obtain ⟨ht, hrem⟩ := hop
    exact h.withOp _ ⟨ht, by dsimp only; omega⟩ (by rw [hcase]; simp) (by rw [hcase]; exact fun a ha => ha) (by rw [hcase]; rfl)
      (by rw [hcase]; exact fun a ha => ha)
  | gathering e window =>
    rw [hcase] at hop
    obtain ⟨he, hn, hwin⟩ := hop
    exact h.withOp _ ⟨he, hn, by omega⟩ (by rw [hcase]; simp) (by rw [hcase]; exact fun a ha => ha) (by rw [hcase]; rfl)
      (by rw [hcase]; exact fun a ha => ha)
  | erasing e c =>
    rw [hcase] at hop
    obtain ⟨⟨he, hhead, hrem, hb⟩, hbegun⟩ := hop
    exact h.withOp _ ⟨⟨he, hhead, by dsimp only; omega, hb⟩, hbegun⟩ (by rw [hcase]; simp) (by rw [hcase]; exact fun a ha => ha)
      (by rw [hcase]; rfl) (by rw [hcase]; exact fun a ha => ha)
  | suspending e c cause merged =>
    rw [hcase] at hop
    obtain ⟨he, hhead, hrem, hb⟩ := hop
    have hmove : (if c.begun = true then ({ c with remaining := c.remaining - 1 } : Current) else c) =
        { c with remaining := if c.begun then c.remaining - 1 else c.remaining } := by split <;> rfl
    show DirectoryOK { s.dir with
      op := .suspending e (if c.begun = true then { c with remaining := c.remaining - 1 } else c) cause merged }
    rw [hmove]
    refine h.withOp _ ⟨he, hhead, ?_, hb⟩ (by rw [hcase]; simp) (by rw [hcase]; exact fun a ha => ha) (by rw [hcase]; rfl)
      (by rw [hcase]; exact fun a ha => ha)
    dsimp only
    split <;> omega
  | _ =>
    have : { s.dir with op := advanceOp s.dir.op } = s.dir := by
      cases hdir : s.dir
      rw [hdir] at hcase
      dsimp only at hcase
      subst hcase
      rfl
    rw [← hcase, this]
    exact h

theorem releaseReset_dir {s : State} (geo1 geo0 : Bool) (hp : s.phase = .inReset) :
    ∃ u : State, u.dir = s.dir ∧ releaseReset geo1 geo0 s = settle u := by
  unfold releaseReset
  rw [hp]
  dsimp only
  refine ⟨_, ?_, rfl⟩
  obtain ⟨-, -, -, -, hd⟩ := applyBoard_beside (deriveBoard s.feed.station s.time.freshness s.time.valid)
    ((((((s.withPhase .running).withElapsed 0).withGeometry (geometryCode geo1 geo0)).withPaint (Paint.reset
      (boardLines (geometryCode geo1 geo0)))).withFrame (FrameStore.reset (geometryCode geo1 geo0))).withKey
      { s.key with timer := if s.key.input then some 0 else none })
  exact hd

/-- Settles O11: every elementary change keeps the table and the directory in order together, and a step is a chain of them. -/
theorem directoryInvariantKept : Obligations.DirectoryInvariantKept := by
  intro s t htab hdir hstep
  refine (step_keeps (P := fun s => TableInv s ∧ DirectoryInv s) (fun _ _ hc => hc.directoryInv) (fun u hu => ?_)
    (fun u hu => ?_) (fun geo1 geo0 u hp hu => ?_) ⟨htab, hdir⟩ hstep).2
  · obtain ⟨h1, h2⟩ := hu
    exact ⟨advanceTimers_tableInv h1, (directoryInv_iff _).2 (advanceTimers_directoryOK ((directoryInv_iff _).1 h2))⟩
  · obtain ⟨-, h2⟩ := hu
    exact ⟨hardReset_tableInv u, (directoryInv_iff _).2 (directoryReset_directoryOK _ ((directoryInv_iff _).1 h2))⟩
  · obtain ⟨h1, h2⟩ := hu
    refine ⟨releaseReset_tableInv geo1 geo0 hp h1, (directoryInv_iff _).2 ?_⟩
    obtain ⟨v, hv, he⟩ := releaseReset_dir geo1 geo0 hp
    rw [he]
    exact settle_directoryOK (hv ▸ (directoryInv_iff _).1 h2)

end Sys2Proof.Machine

/-! SUPPORT and O4, O12 to O14, O18, O21, O24 to O26. The invariants at reset, the marks and the running order, and the messages
that are refused, read or clear the board. -/

namespace Sys2Proof.Machine

/-! ### The invariants at reset -/

theorem reset_windowInv : WindowInv State.reset :=
  (windowInv_iff _).2 ⟨defaultSettings_ok, fun _ => rfl, tableReset_fits _ _⟩

theorem reset_timeInv : TimeInv State.reset := by
  refine ⟨defaultSettings_ok, ⟨by decide, by decide, by decide⟩, by decide, by decide, fun _ => ⟨rfl, rfl, rfl, rfl⟩,
    (fun h => nomatch h), ?_, fun h => nomatch h⟩
  show 0 < holdoverMs State.reset
  decide

theorem reset_queueInv : QueueInv State.reset := ⟨Nat.zero_le _, fun _ => Nat.zero_le _⟩

theorem reset_settled : Settled State.reset := by
  refine ⟨rfl, rfl, fun _ slot => ?_, (fun h => nomatch h), fun _ => rfl⟩
  cases slot <;> rfl

theorem reset_paintInv : PaintInv State.reset := by
  refine ⟨by decide, setBelow_nil _, rfl, ⟨rfl, fun i hi => ?_⟩, ⟨rfl, fun p hp i hm => ?_⟩, fun j hj => ?_, fun b hb => ?_, trivial,
    trivial, fun h => ?_, fun h => ?_, fun h => absurd rfl h, fun h => absurd rfl h, fun h => ?_⟩
  · rw [List.eq_of_mem_replicate hi]
    exact List.length_replicate
  · rw [List.eq_of_mem_replicate hp] at hm
    cases hm
  all_goals contradiction

theorem reset_directoryOK : DirectoryOK State.reset.dir :=
  directoryOK_scanning rfl rfl rfl rfl (setBelow_nil 8) (setBelow_nil 8) (setBelow_nil 8)

/-- Settles O4. -/
theorem invariantsHoldAtReset : Obligations.InvariantsHoldAtReset :=
  ⟨tableInv_empty rfl rfl rfl, reset_windowInv, reset_timeInv, reset_queueInv, reset_settled, reset_paintInv,
    (directoryInv_iff _).2 reset_directoryOK⟩

/-! ### The marks of a change -/

/-- The first changed position: the lists agree before it and differ there (R24). -/
theorem firstChanged_some {a b : List Nat} {p : Nat} :
    firstChanged a b = some p ↔ a[p]? ≠ b[p]? ∧ ∀ i < p, a[i]? = b[i]? := by
  induction a generalizing b p with
  | nil =>
    cases b with
    | nil => simp [firstChanged]
    | cons y b =>
      cases p with
      | zero => simp [firstChanged]
      | succ p => exact iff_of_false (by simp [firstChanged]) fun h => by simpa using h.2 0 (by omega)
  | cons x a ih =>
    cases b with
    | nil =>
      cases p with
      | zero => simp [firstChanged]
      | succ p => exact iff_of_false (by simp [firstChanged]) fun h => by simpa using h.2 0 (by omega)
    | cons y b =>
      unfold firstChanged
      by_cases hxy : x = y
      · subst hxy
        cases p with
        | zero => simp
        | succ p =>
          have hall : (∀ i < p + 1, (x :: a)[i]? = (x :: b)[i]?) ↔ ∀ i < p, a[i]? = b[i]? := by
            refine ⟨fun h i hi => by simpa using h (i + 1) (by omega), fun h i hi => ?_⟩
            cases i with
            | zero => rfl
            | succ i => simpa using h i (by omega)
          rw [hall]
          simpa using ih
      · cases p with
        | zero => simp [hxy]
        | succ p =>
          refine iff_of_false (by simp [hxy]) fun h => hxy ?_
          simpa using h.2 0 (by omega)

theorem boardLines_pos (code : Nat) : 4 ≤ boardLines code := by
  unfold boardLines; split <;> omega

theorem mem_linesFrom {code position line : Nat} : line ∈ linesFrom code position ↔
    position < shownPositions code ∧ line ≤ boardLines code - 2 ∧ (position = 0 ∨ position + 1 ≤ line) := by
  have := boardLines_pos code
  unfold linesFrom
  split
  · next h => simp; omega
  · next h =>
    simp only [List.mem_filter, List.mem_range, Bool.or_eq_true, decide_eq_true_eq]
    omega

theorem mem_orderMarks {code line : Nat} {before after : List Nat} : line ∈ orderMarks code before after ↔
    ∃ p, p < shownPositions code ∧ before[p]? ≠ after[p]? ∧ (∀ i < p, before[i]? = after[i]?) ∧
      line ≤ boardLines code - 2 ∧ (p = 0 ∨ p + 1 ≤ line) := by
  unfold orderMarks
  cases h : firstChanged before after with
  | none =>
    refine iff_of_false (by simp) ?_
    rintro ⟨p, -, hne, hall, -⟩
    rw [firstChanged_some.2 ⟨hne, hall⟩] at h
    cases h
  | some p =>
    rw [mem_linesFrom]
    obtain ⟨hne, hall⟩ := firstChanged_some.1 h
    constructor
    · rintro ⟨hp, hl⟩
      exact ⟨p, hp, hne, hall, hl⟩
    · rintro ⟨q, hq, hqne, hqall, hl⟩
      have := (firstChanged_some.2 ⟨hqne, hqall⟩).symm.trans h
      cases this
      exact ⟨hq, hl⟩

theorem mem_linesAt {code position line : Nat} : line ∈ linesAt code position ↔
    position < shownPositions code ∧ ((position = 0 ∧ line ≤ 1) ∨ (position ≠ 0 ∧ line = position + 1)) := by
  unfold linesAt
  split
  · next h => simp; omega
  · next h =>
    split
    · next h0 => simp; omega
    · next h0 => simp; omega

/-- The model's test of a changed content is R25's list. -/
theorem shownChanged_iff (a b : Record) : shownChanged a b = true ↔ ShownDiffers a b := by
  have hlive : (a.isLive != b.isLive) = true ↔ ¬ (a.life = .live ↔ b.life = .live) := by
    by_cases ha : a.life = .live <;> by_cases hb : b.life = .live <;> simp [Record.isLive, ha, hb]
  simp only [shownChanged, ShownDiffers, Bool.or_eq_true, decide_eq_true_eq, hlive]
  tauto

theorem mem_contentMarks {code line : Nat} {old new : List (Option Record)} {order : List Nat} :
    line ∈ contentMarks code old new order ↔
      ∃ p key a b, p < shownPositions code ∧ order[p]? = some key ∧ findRecord key old = some a ∧
        findRecord key new = some b ∧ ShownDiffers a b ∧ ((p = 0 ∧ line ≤ 1) ∨ (p ≠ 0 ∧ line = p + 1)) := by
  simp only [contentMarks, List.mem_flatMap, List.mem_range]
  constructor
  · rintro ⟨p, hp, hm⟩
    split at hm
    · cases hm
    · next key hk =>
      split at hm
      · next a b ha hb =>
        split at hm
        · next hc => exact ⟨p, key, a, b, hp, hk, ha, hb, (shownChanged_iff a b).1 hc, (mem_linesAt.1 hm).2⟩
        · cases hm
      · cases hm
  · rintro ⟨p, key, a, b, hp, hk, ha, hb, hc, hl⟩
    refine ⟨p, hp, ?_⟩
    simp only [hk, ha, hb, (shownChanged_iff a b).2 hc, if_true]
    exact mem_linesAt.2 ⟨hp, hl⟩

/-- Settles O24. -/
theorem linesOfAChange : Obligations.LinesOfAChange :=
  fun _ _ _ _ => ⟨mem_orderMarks, fun _ _ => mem_contentMarks⟩

/-! ### The running order -/

/-- `a` stands before `b` (R22). -/
def StandsBefore (a b : Record) : Prop :=
  orderKey a < orderKey b ∨ (orderKey a = orderKey b ∧
    (a.scheduled < b.scheduled ∨ (a.scheduled = b.scheduled ∧ a.key < b.key)))

theorem recordBefore_iff (a b : Record) : recordBefore a b = true ↔ StandsBefore a b := by
  simp [recordBefore, StandsBefore]

theorem StandsBefore.trans {a b c : Record} (h : StandsBefore a b) (g : StandsBefore b c) : StandsBefore a c := by
  unfold StandsBefore at *
  omega

theorem standsBefore_total {a b : Record} (h : ¬ StandsBefore a b) (hk : a.key ≠ b.key) : StandsBefore b a := by
  unfold StandsBefore at *
  omega

theorem orderInsert_perm (r : Record) (l : List Record) : (orderInsert r l).Perm (r :: l) := by
  induction l with
  | nil => exact .refl _
  | cons q rest ih =>
    unfold orderInsert
    split
    · exact .refl _
    · exact (ih.cons q).trans (.swap r q rest)

theorem orderSort_perm (l : List Record) : (orderSort l).Perm l := by
  induction l with
  | nil => exact .refl _
  | cons r rest ih => exact (orderInsert_perm r _).trans (ih.cons r)

theorem orderInsert_sorted {r : Record} {l : List Record} (h : l.Pairwise StandsBefore) (hk : ∀ q ∈ l, r.key ≠ q.key) :
    (orderInsert r l).Pairwise StandsBefore := by
  induction l with
  | nil => exact List.pairwise_singleton _ _
  | cons q rest ih =>
    obtain ⟨hq, hrest⟩ := List.pairwise_cons.1 h
    unfold orderInsert
    split
    · next hb =>
      have hb := (recordBefore_iff r q).1 hb
      refine List.pairwise_cons.2 ⟨fun x hx => ?_, h⟩
      rcases List.mem_cons.1 hx with rfl | hx
      · exact hb
      · exact hb.trans (hq x hx)
    · next hb =>
      have hb := standsBefore_total (fun hx => hb ((recordBefore_iff r q).2 hx)) (hk q (by simp))
      refine List.pairwise_cons.2 ⟨fun x hx => ?_, ih hrest fun x hx => hk x (List.mem_cons_of_mem _ hx)⟩
      rcases List.mem_cons.1 ((orderInsert_perm r rest).mem_iff.1 hx) with rfl | hx
      · exact hb
      · exact hq x hx

theorem orderSort_sorted {l : List Record} (h : (l.map Record.key).Nodup) : (orderSort l).Pairwise StandsBefore := by
  induction l with
  | nil => exact List.Pairwise.nil
  | cons r rest ih =>
    simp only [List.map_cons, List.nodup_cons] at h
    refine orderInsert_sorted (ih h.2) fun q hq hk => h.1 ?_
    exact List.mem_map.2 ⟨q, (orderSort_perm rest).mem_iff.1 hq, hk.symm⟩

theorem visibleUnder_iff (filter : List Text) (r : Record) : visibleUnder filter r = true ↔ filter = [] ∨ r.platform ∈ filter := by
  simp [visibleUnder]

theorem orderKey_delayed {r : Record} {d : Int} (hs : r.state = .estimated) (hd : r.delay = some d) (h0 : 0 < d) :
    orderKey r = r.scheduled + d := by
  simp [orderKey, hs, hd, h0]

theorem orderKey_plain {r : Record} (h : r.state ≠ .estimated ∨ ∀ d ∈ r.delay, d ≤ 0) : orderKey r = r.scheduled := by
  unfold orderKey
  split
  · next d hs hd =>
    have := (h.resolve_left (fun hn => hn hs)) d hd
    exact if_neg (by omega)
  · rfl

/-- Settles O25: the running order is an insertion sort by a total order on records of unequal keys. -/
theorem runningOrderIsSorted : Obligations.RunningOrderIsSorted := by
  refine ⟨fun r => ⟨fun d => orderKey_delayed, orderKey_plain⟩, fun filter slots hnodup => ?_⟩
  have hkeys : (((recordsOf slots).filter (visibleUnder filter)).map Record.key).Nodup :=
    hnodup.sublist (List.filter_sublist.map _)
  have hperm := orderSort_perm ((recordsOf slots).filter (visibleUnder filter))
  refine ⟨_, rfl, fun r => ?_, hperm.nodup_iff.2 (List.Nodup.of_map _ hkeys), orderSort_sorted hkeys⟩
  rw [hperm.mem_iff, List.mem_filter, visibleUnder_iff]

/-! ### Messages of the listening part -/

section
variable {s : State} (hl : Listening s)
include hl

theorem exec_postService (h : Header) (f : PostFields) :
    exec (.postService h f) s = .next (settle (acceptPost h f s)) :=
  congrArg Host.Outcome.next (feedEvent_of_listening hl _)

theorem exec_amendService (h : Header) (f : AmendFields) :
    exec (.amendService h f) s = .next (settle (acceptAmend h f s)) :=
  congrArg Host.Outcome.next (feedEvent_of_listening hl _)

theorem exec_retireService (h : Header) (key : Nat) :
    exec (.retireService h key) s = .next (settle (acceptRetire h key s)) :=
  congrArg Host.Outcome.next (feedEvent_of_listening hl _)

/-- A POST SERVICE that is only answered. -/
theorem post_answered {h : Header} {f : PostFields} {outcome detail : Nat}
    (he : acceptPost h f s = answer kindPost h outcome detail s) :
    ∃ t, exec (.postService h f) s = .next t ∧ Answered kindPost h outcome detail s t ∧ FramedAtRest [.results] s t :=
  ⟨_, (exec_postService hl h f).trans (by rw [he]), answered_settle _ _ _ _ _, answer_framed _ _ _ _ _⟩

/-- An AMEND SERVICE that is only answered. -/
theorem amend_answered {h : Header} {f : AmendFields} {outcome detail : Nat}
    (he : acceptAmend h f s = answer kindAmend h outcome detail s) :
    ∃ t, exec (.amendService h f) s = .next t ∧ Answered kindAmend h outcome detail s t ∧ FramedAtRest [.results] s t :=
  ⟨_, (exec_amendService hl h f).trans (by rw [he]), answered_settle _ _ _ _ _, answer_framed _ _ _ _ _⟩

end

/-! ### POST SERVICE, case by case -/

section
variable {h : Header} {f : PostFields} {s : State}

theorem acceptPost_outOfRange (hf : postFieldsOK f = false) : acceptPost h f s = answer kindPost h 6 0 s := by
  unfold acceptPost
  rw [if_neg (by simp [hf])]
  rfl

theorem acceptPost_duplicate {r : Record} (hf : postFieldsOK f = true) (hr : findRecord f.key s.table.slots = some r)
    (hj : judgeRevision f.revision r.revision = .duplicate) :
    acceptPost h f s = answer kindPost h 0 (positionDetail s f.key) s := by
  simp only [acceptPost, hf, hr, hj, if_true]
  rfl

theorem acceptPost_stale {r : Record} (hf : postFieldsOK f = true) (hr : findRecord f.key s.table.slots = some r)
    (hj : judgeRevision f.revision r.revision = .stale) :
    acceptPost h f s = answer kindPost h 4 r.revision.toNat s := by
  simp only [acceptPost, hf, hr, hj, if_true]
  rfl

/-- A POST SERVICE whose fields and revision pass is refused at the first place that fails (R10). -/
theorem acceptPost_badPlace {outcome detail : Nat} (hf : postFieldsOK f = true)
    (hr : ∀ r ∈ findRecord f.key s.table.slots, judgeRevision f.revision r.revision = .newer)
    (hp : firstBadPlace s.dir (postPlaces f) = some (outcome, detail)) :
    acceptPost h f s = answer kindPost h outcome detail s := by
  have hp : firstBadPlace s.dir (namedPlaces f.destination f.via f.stops) = some (outcome, detail) := hp
  cases hfind : findRecord f.key s.table.slots with
  | none => simp only [acceptPost, hf, hfind, hp, if_true]
  | some r => simp only [acceptPost, hf, hfind, hr r (by simp [hfind]), hp, if_true]

theorem acceptPost_absent (hf : postFieldsOK f = true) (hr : findRecord f.key s.table.slots = none)
    (hp : firstBadPlace s.dir (postPlaces f) = none) : acceptPost h f s = postCreate h f s := by
  have hp : firstBadPlace s.dir (namedPlaces f.destination f.via f.stops) = none := hp
  simp only [acceptPost, hf, hr, hp, if_true]

theorem acceptPost_newer {r : Record} (hf : postFieldsOK f = true) (hr : findRecord f.key s.table.slots = some r)
    (hj : judgeRevision f.revision r.revision = .newer) (hp : firstBadPlace s.dir (postPlaces f) = none) :
    acceptPost h f s = answer kindPost h (doneOrAdjusted f.delay)
      (positionDetail (replaceRecord r (postRecord f) s) f.key) (replaceRecord r (postRecord f) s) := by
  have hp : firstBadPlace s.dir (namedPlaces f.destination f.via f.stops) = none := hp
  simp only [acceptPost, hf, hr, hj, hp, if_true]

end

/-- A message that is not newer is a duplicate or stale, by its distance (R7). -/
theorem judgeRevision_not_newer {new old : Byte} (h : ¬ Newer new old) :
    (judgeRevision new old = .duplicate ∧ revisionDistance new old = 0) ∨
      (judgeRevision new old = .stale ∧ 128 ≤ revisionDistance new old) := by
  rw [judgeRevision_eq]
  unfold Newer at h
  by_cases h0 : revisionDistance new old = 0
  · exact .inl ⟨by simp [h0], h0⟩
  · have h1 : ¬ revisionDistance new old ≤ 127 := by omega
    exact .inr ⟨by simp [h0, h1], by omega⟩

/-- Settles O12. -/
theorem postRefusedOnItsFields : Obligations.PostRefusedOnItsFields :=
  fun _ _ _ hl hf => post_answered hl (acceptPost_outOfRange (postFieldsOK_false hf))

/-- Settles O14. -/
theorem postRefusedAtFirstBadPlace : Obligations.PostRefusedAtFirstBadPlace := by
  intro h f s outcome detail hl hf hk hr hp
  exact post_answered hl (acceptPost_badPlace ((postFieldsOK_iff hk).2 hf) (fun r hm => judgeRevision_newer (hr r hm))
    (firstBadPlace_failure hp (by simp [postPlaces])))

/-! ### AMEND SERVICE, case by case -/

section
variable {h : Header} {f : AmendFields} {s : State}

theorem acceptAmend_outOfRange (hf : amendFieldsOK f = false) : acceptAmend h f s = answer kindAmend h 6 0 s := by
  unfold acceptAmend
  rw [if_neg (by simp [hf])]
  rfl

theorem acceptAmend_absent (hf : amendFieldsOK f = true) (hr : findRecord f.key s.table.slots = none) :
    acceptAmend h f s = answer kindAmend h 3 0 s := by
  simp only [acceptAmend, hf, hr, if_true]
  rfl

theorem acceptAmend_leaving {r : Record} {cause : LeaveCause} (hf : amendFieldsOK f = true)
    (hr : findRecord f.key s.table.slots = some r) (hlife : r.life = .leaving cause) :
    acceptAmend h f s = answer kindAmend h 5 (leaveCauseDetail cause) s := by
  simp only [acceptAmend, hf, hr, hlife, if_true]
  rfl

theorem acceptAmend_duplicate {r : Record} (hf : amendFieldsOK f = true) (hr : findRecord f.key s.table.slots = some r)
    (hlife : r.life = .live) (hj : judgeRevision f.revision r.revision = .duplicate) :
    acceptAmend h f s = answer kindAmend h 0 (positionDetail s f.key) s := by
  simp only [acceptAmend, hf, hr, hlife, hj, if_true]
  rfl

theorem acceptAmend_stale {r : Record} (hf : amendFieldsOK f = true) (hr : findRecord f.key s.table.slots = some r)
    (hlife : r.life = .live) (hj : judgeRevision f.revision r.revision = .stale) :
    acceptAmend h f s = answer kindAmend h 4 r.revision.toNat s := by
  simp only [acceptAmend, hf, hr, hlife, hj, if_true]
  rfl

theorem acceptAmend_contentFault {r : Record} (hf : amendFieldsOK f = true) (hr : findRecord f.key s.table.slots = some r)
    (hlife : r.life = .live) (hj : judgeRevision f.revision r.revision = .newer) (hc : amendContentOK f r = false) :
    acceptAmend h f s = answer kindAmend h 6 0 s := by
  simp only [acceptAmend, hf, hr, hlife, hj, hc, if_true, Bool.false_eq_true, if_false]
  rfl

theorem acceptAmend_applied {r : Record} (hf : amendFieldsOK f = true) (hr : findRecord f.key s.table.slots = some r)
    (hlife : r.life = .live) (hj : judgeRevision f.revision r.revision = .newer) (hc : amendContentOK f r = true) :
    acceptAmend h f s = answer kindAmend h (doneOrAdjusted f.delay)
      (positionDetail (retable (mapRecord f.key (amendRecord f) s.table.slots) s) f.key)
      (retable (mapRecord f.key (amendRecord f) s.table.slots) s) := by
  simp only [acceptAmend, hf, hr, hlife, hj, hc, if_true]

end

theorem runStateOf_bind (o : Option Nat) : o.bind runStateOf = some .estimated ↔ o = some 1 := by
  cases o with
  | none => simp
  | some n => simp [runStateOf_estimated]

/-- The content check of AMEND SERVICE is R16's. -/
theorem amendContentOK_iff (f : AmendFields) (r : Record) : amendContentOK f r = true ↔ ¬ AmendContentFault f r := by
  have hest : (!(decide (f.state.bind runStateOf = some .estimated) && f.delay.isNone && r.delay.isNone)) = true ↔
      ¬ (f.state = some 1 ∧ f.delay = none ∧ r.delay = none) := by
    rw [Bool.not_eq_true', Bool.eq_false_iff, ne_eq, Bool.and_eq_true, Bool.and_eq_true, decide_eq_true_eq, runStateOf_bind,
      Option.isNone_iff_eq_none, Option.isNone_iff_eq_none, and_assoc]
  rw [amendContentOK, Bool.and_eq_true, Bool.and_eq_true, hest]
  simp only [AmendContentFault, indexList, List.all_eq_true, decide_eq_true_eq, not_or, not_exists, not_and, Nat.not_le]
  tauto

/-- Settles O18. -/
theorem amendRefused : Obligations.AmendRefused := by
  intro h f s hl hk
  refine ⟨fun hf => amend_answered hl (acceptAmend_outOfRange (amendFieldsOK_false hf)), fun hf hn => ?_,
    fun r cause hf hr hlife => ?_, fun r hf hr hlife hj hc => ?_⟩
  · exact amend_answered hl (acceptAmend_absent ((amendFieldsOK_iff hk).2 hf) hn)
  · obtain ⟨t, ht, ha, hframe⟩ := amend_answered hl (acceptAmend_leaving (h := h) ((amendFieldsOK_iff hk).2 hf) hr hlife)
    refine ⟨t, ht, hframe, ?_⟩
    cases cause <;> exact ha
  · refine amend_answered hl (acceptAmend_contentFault ((amendFieldsOK_iff hk).2 hf) hr hlife (judgeRevision_newer hj) ?_)
    rw [← Bool.not_eq_true, amendContentOK_iff, not_not]
    exact hc

/-- Settles O13. -/
theorem duplicateAndStaleChangeNothing : Obligations.DuplicateAndStaleChangeNothing := by
  intro h s r hl
  refine ⟨fun f hf hk hr hj => ?_, fun f hf hk hr hlife hj => ?_⟩
  · have hf := (postFieldsOK_iff hk).2 hf
    rcases judgeRevision_not_newer hj with ⟨hj, hd⟩ | ⟨hj, hd⟩
    · obtain ⟨t, ht, ha, hframe⟩ := post_answered hl (acceptPost_duplicate (h := h) hf hr hj)
      exact ⟨t, _, _, ht, ha, hframe, fun _ => ⟨rfl, positionDetail_is s f.key⟩, fun hx => by omega⟩
    · obtain ⟨t, ht, ha, hframe⟩ := post_answered hl (acceptPost_stale (h := h) hf hr hj)
      exact ⟨t, _, _, ht, ha, hframe, fun hx => by omega, fun _ => ⟨rfl, rfl⟩⟩
  · have hf := (amendFieldsOK_iff hk).2 hf
    rcases judgeRevision_not_newer hj with ⟨hj, hd⟩ | ⟨hj, hd⟩
    · obtain ⟨t, ht, ha, hframe⟩ := amend_answered hl (acceptAmend_duplicate (h := h) hf hr hlife hj)
      exact ⟨t, _, _, ht, ha, hframe, fun _ => ⟨rfl, positionDetail_is s f.key⟩, fun hx => by omega⟩
    · obtain ⟨t, ht, ha, hframe⟩ := amend_answered hl (acceptAmend_stale (h := h) hf hr hlife hj)
      exact ⟨t, _, _, ht, ha, hframe, fun hx => by omega, fun _ => ⟨rfl, rfl⟩⟩

/-! ### CLEAR BOARD -/

theorem clearMarks (code : Nat) {before : List Nat} : ∀ n, n ∈ orderMarks code before [] ↔
    n ∈ (if before = [] then [] else List.range (boardLines code - 1)) := by
  intro n
  have := boardLines_pos code
  cases before with
  | nil => simp [orderMarks, firstChanged]
  | cons a r =>
    have hshown : 0 < shownPositions code := by unfold shownPositions; omega
    rw [if_neg (by simp)]
    show n ∈ linesFrom code 0 ↔ _
    rw [mem_linesFrom, List.mem_range]
    omega

/-- An event that also marks lines, taken whole: the arbiter's parts hold the dirty line set. -/
theorem quietlyFramed_marked {l : List Part} {s s' : State} (h : SameBut (.dirty :: l) s s')
    (hl : .requests ∉ l ∧ .arbiter ∉ l ∧ .dirOp ∉ l ∧ .eraseMarks ∉ l) : QuietlyFramed l s (settle s') := by
  obtain ⟨⟨hsame, hdir⟩, hraised⟩ := quietlyFramed_settle h (by simpa using hl)
  refine ⟨⟨hsame.mono fun p hp => ?_, hdir⟩, hraised⟩
  rw [List.cons_append, List.mem_cons] at hp
  rcases hp with rfl | hp
  · exact List.mem_append_right _ (by simp [arbiterParts])
  · exact hp

theorem acceptClear_sameBut (h : Header) (s : State) :
    SameBut (.dirty :: .window :: tableParts) s (acceptClear h s) := by
  intro p hp
  cases p <;> simp_all [Part.same, tableParts, acceptClear]

theorem runningOrder_free (filter : List Text) (n : Nat) : runningOrder filter (List.replicate n none) = [] := by
  simp [runningOrder, recordsOf_replicate_none, orderSort]

theorem acceptClear_dirty (h : Header) (s : State) :
    (acceptClear h s).paint.dirty = setInsertAll (orderMarks s.geometry s.table.order []) s.paint.dirty := by
  have hcontent (l : List (Option Record)) : contentMarks s.geometry s.table.slots l [] = [] := by
    simp [contentMarks]
  simp [acceptClear, changeMarks, runningOrder_free, hcontent]

/-- Settles O21. -/
theorem clearBoardEmptiesTable : Obligations.ClearBoardEmptiesTable := by
  intro h s hl hinv
  obtain ⟨hlen, -⟩ := hinv
  have htab := acceptClear_table h s
  refine ⟨_, congrArg Host.Outcome.next (feedEvent_of_listening hl _), ?_, ?_, ?_, fun p => ?_, ?_, ?_,
    quietlyFramed_marked (acceptClear_sameBut h s) (by simp [tableParts])⟩
  · rw [settle_table, htab, hlen]
  · rw [settle_table, htab]
  · rw [settle_table, htab]
  · rw [settle_dir_counts, acceptClear_counts]
    rfl
  · exact answered_settle kindClear h 0 (recordsOf s.table.slots).length
      (retable (s.table.slots.map fun _ => none) ((recount (fun _ => []) s).withTable { s.table with window := .closed }))
  · refine settle_marked (fun hj => by simpa [acceptClear] using hj) fun n => ?_
    rw [acceptClear_dirty, mem_setInsertAll, clearMarks]
    rfl

/-! ### The reads -/

/-- What an accepted read does to the queue (R181 to R183). -/
theorem enqueueRead_queued (tag : Byte) (o : ReadObject) (s : State) : ReadQueued tag o s (enqueueRead tag o s) := by
  have hany : s.results.queue.any (Entry.reads o) = true ↔ ∃ old, Entry.read old o ∈ s.results.queue := by
    rw [List.any_eq_true]
    constructor
    · rintro ⟨e, he, hr⟩
      cases e with
      | result => cases hr
      | read old o' =>
        have : o' = o := by simpa [Entry.reads] using hr
        exact ⟨old, this ▸ he⟩
    · rintro ⟨old, he⟩
      exact ⟨_, he, by simp [Entry.reads]⟩
  unfold ReadQueued enqueueRead
  by_cases hq : ∃ old, Entry.read old o ∈ s.results.queue
  · rw [if_pos hq, if_pos (hany.2 hq)]
    simp only [State.withResults_results, ResultSender.mk.injEq, and_true]
    refine List.map_congr_left fun e _ => ?_
    cases e with
    | result => rfl
    | read t o' => by_cases h : o' = o <;> simp [Entry.retag, h]
  · rw [if_neg hq, if_neg (fun h => hq (hany.1 h)), enqueue_results]

theorem readQueued_settle (tag : Byte) (o : ReadObject) (s : State) :
    ReadQueued tag o s (settle (enqueueRead tag o s)) := by
  have := enqueueRead_queued tag o s
  unfold ReadQueued at this ⊢
  rwa [settle_results]

theorem enqueueRead_framed (tag : Byte) (o : ReadObject) (s : State) :
    FramedAtRest [.results] s (settle (enqueueRead tag o s)) :=
  framedAtRest_settle (enqueueRead_sameBut tag o s) (by simp [asideParts])

/-- A refused read is answered whatever its reply flag (R177, R183). -/
theorem answerRead_eq (kind : Byte) (h : Header) (o d : Nat) (s : State) :
    answerRead kind h o d s = answer kind { h with reply := true } o d s := rfl

/-- A read accepted or refused by its range. -/
theorem read_cases {f : State → State} {s : State} {kind : Byte} {h : Header} {o : ReadObject} {ok : Bool}
    (hf : f s = if ok then enqueueRead h.tag o s else answerRead kind h 6 0 s) :
    FramedAtRest [.results] s (settle (f s)) ∧
      (ok = false → Answered kind { h with reply := true } 6 0 s (settle (f s))) ∧
      (ok = true → ReadQueued h.tag o s (settle (f s))) := by
  cases ok with
  | true =>
    rw [hf, if_pos rfl]
    exact ⟨enqueueRead_framed _ _ _, (fun hx => nomatch hx), fun _ => readQueued_settle _ _ _⟩
  | false =>
    rw [hf, if_neg (by simp), answerRead_eq]
    exact ⟨answer_framed _ _ _ _ _, fun _ => answered_settle _ _ _ _ _, fun hx => nomatch hx⟩

/-- Settles O26. -/
theorem readsAreQueuedOrMerged : Obligations.ReadsAreQueuedOrMerged := by
  intro h n s hl hn
  refine ⟨⟨_, congrArg Host.Outcome.next (feedEvent_of_listening hl _), ?_⟩,
    ⟨_, congrArg Host.Outcome.next (feedEvent_of_listening hl _), ?_⟩,
    ⟨_, congrArg Host.Outcome.next (feedEvent_of_listening hl _), enqueueRead_framed _ _ _, readQueued_settle _ _ _⟩⟩
  · obtain ⟨hframe, hbad, hgood⟩ := read_cases (f := acceptReadService h n) (s := s) (kind := kindReadService) (h := h)
      (o := .service n) (ok := keyOK n) rfl
    exact ⟨hframe, fun h0 => hbad (by simp [keyOK, h0]), fun h0 => hgood (by simp [keyOK]; omega)⟩
  · obtain ⟨hframe, hbad, hgood⟩ := read_cases (f := acceptReadPlace h n) (s := s) (kind := kindReadPlace) (h := h)
      (o := .place n) (ok := decide (n < 1024)) (by simp [acceptReadPlace, outOutOfRange])
    exact ⟨hframe, fun h0 => hbad (by simp; omega), fun h0 => hgood (by simp; omega)⟩

end Sys2Proof.Machine

/-! SUPPORT and O15, O16, O17, O19, O20. What a change of the table leaves, and the messages that change a record. -/

namespace Sys2Proof.Machine

/-! ### What the table's operations touch -/

theorem retable_sameBut (l : List (Option Record)) (s : State) : SameBut [.slots, .order, .dirty] s (retable l s) := by
  intro p hp
  cases p <;> simp_all [Part.same]

theorem recount_sameBut (f : List (Nat × Nat) → List (Nat × Nat)) (s : State) : SameBut [.counts] s (recount f s) := by
  intro p hp
  cases p <;> simp_all [Part.same]

theorem touchWindow_sameBut (s : State) : SameBut [.window] s (touchWindow s) := by
  intro p hp
  cases p <;> simp_all [Part.same]

theorem closeWindow_sameBut (s : State) : SameBut [.window] s (s.withTable { s.table with window := .closed }) := by
  intro p hp
  cases p <;> simp_all [Part.same]

theorem sweep_sameBut (s : State) : SameBut [.counts, .window, .slots, .order, .dirty] s (sweep s) :=
  ((recount_sameBut _ s).trans (closeWindow_sameBut _)).trans (retable_sameBut _ _)

theorem createRecord_sameBut (r : Record) (l : List (Option Record)) (s : State) :
    SameBut [.counts, .slots, .order, .dirty] s (createRecord r l s) :=
  (recount_sameBut _ s).trans (retable_sameBut _ _)

theorem replaceRecord_sameBut (old new : Record) (s : State) :
    SameBut [.counts, .slots, .order, .dirty] s (replaceRecord old new s) :=
  (recount_sameBut _ s).trans (retable_sameBut _ _)

/-! ### Marks of a table left as it was -/

theorem firstChanged_self (l : List Nat) : firstChanged l l = none := by
  induction l with
  | nil => rfl
  | cons a r ih => simp [firstChanged, ih]

theorem orderMarks_self (code : Nat) (order : List Nat) : orderMarks code order order = [] := by
  simp [orderMarks, firstChanged_self]

theorem shownChanged_self (r : Record) : shownChanged r r = false := by
  simp [shownChanged]

theorem contentMarks_self (code : Nat) (slots : List (Option Record)) (order : List Nat) :
    contentMarks code slots slots order = [] := by
  unfold contentMarks
  refine List.flatMap_eq_nil_iff.2 fun p _ => ?_
  split
  · rfl
  · next key _ =>
    cases findRecord key slots with
    | none => rfl
    | some r => simp [shownChanged_self]

/-! ### The sweep -/

/-- The counts lose what the LEAVING records reference (R14, R59). -/
theorem sweep_counts {s : State} (h : TableInv s) : CountsSwept s.table.slots s (sweep s) := by
  obtain ⟨-, -, hrec, -, hcan, hcount⟩ := h
  have hgone : ∀ p ∈ placesOf (s.records.filter (fun r => !r.isLive)), p < 1024 :=
    placesOf_lt fun r hr => hrec r (List.mem_of_mem_filter hr)
  intro p hp
  have hsplit := placesOf_filter Record.isLive s.records p
  have hc := hcount p hp
  rw [references_eq] at hc
  have hdown : cellGet 0 (sweep s).dir.counts p
      = cellGet 0 s.dir.counts p - (placesOf (s.records.filter (fun r => !r.isLive))).count p := by
    rw [sweep_dir]
    exact cellGet_countDown hcan hgone p
  show _ + (placesOf (s.records.filter (fun r => !r.isLive))).count p = _
  omega

theorem keepLive_of_live {slots : List (Option Record)} (h : ∀ r ∈ recordsOf slots, r.life = .live) : keepLive slots = slots := by
  unfold keepLive
  refine (List.map_congr_left fun o ho => ?_).trans (List.map_id slots)
  cases o with
  | none => rfl
  | some r => simp [Option.filter, Record.isLive, h r (mem_recordsOf.2 ho)]

/-- A sweep that finds no LEAVING record closes the window and nothing more (R61). -/
theorem sweep_of_live {s : State} (h : TableInv s) (hlive : ∀ r ∈ s.records, r.life = .live) : SameBut [.window] s (sweep s) := by
  obtain ⟨-, -, -, hord, -, -⟩ := h
  have hkeep : keepLive s.table.slots = s.table.slots := keepLive_of_live hlive
  have hgone : (recordsOf s.table.slots).filter (fun r => !r.isLive) = [] :=
    List.filter_eq_nil_iff.2 fun r hr => by simp [Record.isLive, hlive r hr]
  have hdirty : (sweep s).paint = s.paint := by
    simp [sweep, changeMarks, hkeep, ← hord, orderMarks_self, contentMarks_self]
  have hcounts : (sweep s).dir = s.dir := by rw [sweep_dir, hgone]; rfl
  have hslots : (sweep s).table.slots = s.table.slots := hkeep
  have horder : (sweep s).table.order = s.table.order := by rw [sweep_table, hkeep, hord]
  intro p hp
  have hother := sweep_sameBut s p
  cases p <;> simp_all [Part.same]

/-! ### Placing and replacing records -/

/-- The place check of a POST SERVICE passes: its places are places of the directory (R9). -/
theorem postPlaces_lt {f : PostFields} (h : ¬ PostOutOfRange f) : ∀ p ∈ postPlaces f, p < 1024 := by
  intro p hp
  by_contra hlt
  exact h (.inr (.inr (.inr (.inr (.inr (.inl ⟨p, hp, by omega⟩))))))

/-- +1 for each place the new record names (R14). -/
theorem createRecord_counts {f : PostFields} {s : State} (l : List (Option Record)) (hcan : cellsFrom 0 1024 0 s.dir.counts = true)
    (h : ¬ PostOutOfRange f) (p : Nat) : cellGet 0 (createRecord (postRecord f) l s).dir.counts p
      = cellGet 0 s.dir.counts p + (postPlaces f).count p :=
  cellGet_countUp hcan (postPlaces_lt h) p

/-- −1 for each place the old record names and +1 for each the new names (R14). -/
theorem replaceRecord_counts {f : PostFields} {s : State} {old : Record} (hinv : TableInv s) (hold : old ∈ s.records)
    (h : ¬ PostOutOfRange f) {p : Nat} (hp : p < 1024) :
    cellGet 0 (replaceRecord old (postRecord f) s).dir.counts p + (referencesOf old).count p
      = cellGet 0 s.dir.counts p + (postPlaces f).count p := by
  obtain ⟨-, -, hrec, -, hcan, hcount⟩ := hinv
  have hplaces : ∀ q ∈ referencesOf old, q < 1024 := fun q hq => placesOf_lt hrec q (mem_placesOf.2 ⟨old, hold, hq⟩)
  have hle := count_le_placesOf hold p
  have hc := hcount p hp
  rw [references_eq] at hc
  have hget : cellGet 0 (replaceRecord old (postRecord f) s).dir.counts p
      = cellGet 0 s.dir.counts p - (referencesOf old).count p + (postPlaces f).count p := by
    show cellGet 0 (countUp (postPlaces f) (countDown (referencesOf old) s.dir.counts)) p = _
    rw [cellGet_countUp (countDown_canonical hcan hplaces) (postPlaces_lt h), cellGet_countDown hcan hplaces]
  omega

/-! ### A change of the table, answered -/

theorem doneOrAdjusted_outside {d : Option Int} (h : DelayOutside d) : doneOrAdjusted d = 1 :=
  if_pos ((delayClamped_iff d).2 h)

theorem doneOrAdjusted_inside {d : Option Int} (h : ¬ DelayOutside d) : doneOrAdjusted d = 0 :=
  if_neg fun hc => h ((delayClamped_iff d).1 hc)

section
variable {kind : Byte} {h : Header} {o d : Nat} {s u : State}

/-- An answer given after a change that left the results alone. -/
theorem answered_after (hres : u.results = s.results) : Answered kind h o d s (settle (answer kind h o d u)) := by
  have := answered_settle kind h o d u
  unfold Answered at this ⊢
  rwa [hres] at this

/-- The answer of an applied POST SERVICE or AMEND SERVICE: the record's position, under DONE or ADJUSTED (R8). -/
theorem position_answered {delay : Option Int} {key : Nat} (hres : u.results = s.results) :
    let t := settle (answer kind h (doneOrAdjusted delay) (positionDetail u key) u)
    PositionIs t key (positionDetail u key) ∧ (DelayOutside delay → Answered kind h 1 (positionDetail u key) s t) ∧
      (¬ DelayOutside delay → Answered kind h 0 (positionDetail u key) s t) := by
  refine ⟨?_, fun ho => ?_, fun hi => ?_⟩
  · have := positionDetail_is u key
    unfold PositionIs at this ⊢
    rwa [settle_table, answer_table]
  · rw [doneOrAdjusted_outside ho]
    exact answered_after hres
  · rw [doneOrAdjusted_inside hi]
    exact answered_after hres

/-- A change of the records from a state whose records, filter and marks are those of `s`, answered and taken whole. -/
theorem retabled_answered {l : List (Option Record)} (hsl : u.table.slots = s.table.slots) (hord : u.table.order = s.table.order)
    (hset : u.settings = s.settings) (hgeo : u.geometry = s.geometry) (hpaint : u.paint = s.paint) :
    Retabled l s (settle (answer kind h o d (retable l u))) := by
  have hmarks : changeMarks l u = changeMarks l s := by unfold changeMarks; rw [hsl, hord, hset, hgeo]
  refine ⟨by simp, by simp [hset], settle_marked (fun hj => by simpa [hpaint] using hj) fun n => ?_⟩
  rw [answer_paint, retable_paint, hmarks, hpaint]
  exact mem_setInsertAll

/-- The frame of an answered change of the table and of its counts. -/
theorem answered_quietly {l m : List Part} (hu : SameBut m s u) (hm : ∀ p ∈ m, p ∈ Part.dirty :: l)
    (hres : .results ∈ l) (hl : .requests ∉ l ∧ .arbiter ∉ l ∧ .dirOp ∉ l ∧ .eraseMarks ∉ l) :
    QuietlyFramed l s (settle (answer kind h o d u)) := by
  refine quietlyFramed_marked ((hu.trans (answer_sameBut _ _ _ _ _)).mono fun p hp => ?_) hl
  rcases List.mem_append.1 hp with hp | hp
  · exact hm p hp
  · exact List.mem_cons_of_mem _ (List.mem_singleton.1 hp ▸ hres)

end

theorem createRecord_results (r : Record) (l : List (Option Record)) (s : State) :
    (createRecord r l s).results = s.results := by simp [createRecord]

theorem replaceRecord_results (old new : Record) (s : State) : (replaceRecord old new s).results = s.results := by
  simp [replaceRecord]

theorem createRecord_retabled {kind : Byte} {h : Header} {o d : Nat} {r : Record} {l : List (Option Record)} {s : State} :
    Retabled l s (settle (answer kind h o d (createRecord r l s))) :=
  retabled_answered (u := recount (countUp (referencesOf r)) s) (by simp) (by simp) (by simp) (by simp) (by simp)

theorem replaceRecord_retabled {kind : Byte} {h : Header} {o d : Nat} {old new : Record} {s : State} :
    Retabled (mapRecord old.key (fun _ => new) s.table.slots) s (settle (answer kind h o d (replaceRecord old new s))) :=
  retabled_answered (u := recount (fun m => countUp (referencesOf new) (countDown (referencesOf old) m)) s)
    (by simp) (by simp) (by simp) (by simp) (by simp)

/-! ### POST SERVICE of an absent key -/

/-- Settles O15. -/
theorem postCreatesRecord : Obligations.PostCreatesRecord := by
  intro h f s hl hinv hf hk hr hplaces hfree
  obtain ⟨-, -, -, -, hcan, -⟩ := hinv
  obtain ⟨l, hins⟩ : ∃ l, insertRecord (postRecord f) s.table.slots = some l :=
    Option.ne_none_iff_exists'.1 fun hn => insertRecord_none.1 hn hfree
  have hpost : acceptPost h f s = answer kindPost h (doneOrAdjusted f.delay)
      (positionDetail (createRecord (postRecord f) l s) f.key) (createRecord (postRecord f) l s) := by
    rw [acceptPost_absent ((postFieldsOK_iff hk).2 hf) hr (firstBadPlace_usable hplaces)]
    simp only [postCreate, hins]
  obtain ⟨i, hi, rfl⟩ := insertRecord_some hins
  obtain ⟨hpos, hout, hin⟩ := position_answered (kind := kindPost) (h := h) (s := s) (delay := f.delay) (key := f.key)
    (u := createRecord (postRecord f) (s.table.slots.set i (some (postRecord f))) s)
    (createRecord_results _ _ s)
  refine ⟨_, postRecord f, _, (exec_postService hl h f).trans (by rw [hpost]), postRecord_posted f,
    ⟨i, hi, createRecord_retabled⟩, fun p _ => ?_, hpos, hout, hin,
    answered_quietly (createRecord_sameBut _ _ s) (by simp [tableParts]) (by simp [tableParts]) (by simp [tableParts])⟩
  rw [settle_dir_counts, answer_dir]
  exact createRecord_counts _ hcan hf p

/-- Settles O16. -/
theorem postOnFullTable : Obligations.PostOnFullTable := by
  intro h f s hl hinv hf hk hr hplaces hfull
  have hins : insertRecord (postRecord f) s.table.slots = none := insertRecord_none.2 hfull
  have hpost := acceptPost_absent (h := h) ((postFieldsOK_iff hk).2 hf) hr (firstBadPlace_usable hplaces)
  have hnext := exec_postService hl h f
  rw [hpost] at hnext
  refine ⟨_, hnext, fun hw => ?_, fun hw => ?_⟩
  · have hc : postCreate h f s = answer kindPost h 2 96 s := by simp only [postCreate, hins, hw]; rfl
    rw [hc]
    exact ⟨answered_settle _ _ _ _ _, answer_framed _ _ _ _ _⟩
  obtain ⟨expiry, cap, hw⟩ : ∃ expiry cap, s.table.window = .opened expiry cap := by
    cases hs : s.table.window with
    | closed => exact absurd hs hw
    | opened expiry cap => exact ⟨expiry, cap, rfl⟩
  by_cases hlive : ∀ r ∈ s.records, r.life = .live
  · have hstill : insertRecord (postRecord f) (sweep s).table.slots = none := by
      rw [sweep_table]
      exact (congrArg _ (keepLive_of_live hlive)).trans hins
    have hc : postCreate h f s = answer kindPost h 2 96 (sweep s) := by simp only [postCreate, hins, hw, hstill]; rfl
    rw [hc]
    refine ⟨by simp [sweep_table], fun _ => ⟨answered_after (sweep_results s), ?_⟩, fun ⟨r, hm, hn⟩ => absurd (hlive r hm) hn⟩
    exact framedAtRest_settle (((sweep_of_live hinv hlive).trans (answer_sameBut _ _ _ _ _)).mono (by simp)) (by simp [asideParts])
  · obtain ⟨r, hm, hn⟩ : ∃ r ∈ s.records, r.life ≠ .live := by simpa using hlive
    have hfreed : none ∈ sweptSlots s.table.slots := by
      refine List.mem_map.2 ⟨some r, mem_recordsOf.1 hm, ?_⟩
      simp [hn]
    obtain ⟨l, hins'⟩ : ∃ l, insertRecord (postRecord f) (sweep s).table.slots = some l :=
      Option.ne_none_iff_exists'.1 fun hx => insertRecord_none.1 hx (by rw [sweep_table, keepLive_eq]; exact hfreed)
    have hc : postCreate h f s = answer kindPost h (doneOrAdjusted f.delay)
        (positionDetail (createRecord (postRecord f) l (sweep s)) f.key) (createRecord (postRecord f) l (sweep s)) := by
      simp only [postCreate, hins, hw, hins']
    obtain ⟨i, hi, rfl⟩ := insertRecord_some hins'
    have hslots : (sweep s).table.slots = sweptSlots s.table.slots := keepLive_eq s.table.slots
    rw [hslots] at hi hc
    obtain ⟨hpos, hout, hin⟩ := position_answered (kind := kindPost) (h := h) (s := s) (delay := f.delay) (key := f.key)
      (u := createRecord (postRecord f) ((sweptSlots s.table.slots).set i (some (postRecord f))) (sweep s))
      ((createRecord_results _ _ _).trans (sweep_results s))
    rw [hc]
    refine ⟨by simp [createRecord, sweep_table], fun hall => absurd hall hlive, fun _ => ⟨postRecord f, _, postRecord_posted f, ⟨i, hi, ?_⟩, ?_, fun p hp => ?_, hpos,
      hout, hin, answered_quietly ((sweep_sameBut s).trans (createRecord_sameBut _ _ _)) (by simp [tableParts]) (by simp [tableParts])
        (by simp [tableParts])⟩⟩
    · simp [createRecord]
    · simp [createRecord]
    · obtain ⟨-, -, -, -, hcan, -⟩ := sweep_tableInv hinv
      have hswept := sweep_counts hinv p hp
      rw [settle_dir_counts, answer_dir, createRecord_counts _ hcan hf]
      unfold State.records
      omega

/-! ### Replacing, amending and retiring -/

/-- Settles O17. -/
theorem postReplacesOrRevives : Obligations.PostReplacesOrRevives := by
  intro h f s r hl hinv hf hk hr hj hplaces
  obtain ⟨hmem, hkey⟩ := findRecord_some hr
  have hpost := acceptPost_newer (h := h) ((postFieldsOK_iff hk).2 hf) hr (judgeRevision_newer hj) (firstBadPlace_usable hplaces)
  have hslots : mapRecord r.key (fun _ => postRecord f) s.table.slots = replacedIn s.table.slots r (postRecord f) := by
    obtain ⟨-, hnodup, -⟩ := hinv
    exact mapRecord_eq hnodup (hkey ▸ hr)
  obtain ⟨hpos, hout, hin⟩ := position_answered (kind := kindPost) (h := h) (s := s) (delay := f.delay) (key := f.key)
    (u := replaceRecord r (postRecord f) s) (replaceRecord_results _ _ s)
  refine ⟨_, postRecord f, _, (exec_postService hl h f).trans (by rw [hpost]), postRecord_posted f, ?_, fun p hp => ?_, hpos, hout,
    hin, answered_quietly (replaceRecord_sameBut _ _ s) (by simp [tableParts]) (by simp [tableParts]) (by simp [tableParts])⟩
  · rw [← hslots]
    exact replaceRecord_retabled
  · rw [settle_dir_counts, answer_dir]
    exact replaceRecord_counts hinv (mem_recordsOf.2 hmem) hf hp

/-- Settles O19. -/
theorem amendApplied : Obligations.AmendApplied := by
  intro h f s r hl hinv hf hk hr hlife hj hc
  have happ := acceptAmend_applied (h := h) ((amendFieldsOK_iff hk).2 hf) hr hlife (judgeRevision_newer hj)
    ((amendContentOK_iff f r).2 hc)
  have hslots : mapRecord f.key (amendRecord f) s.table.slots = replacedIn s.table.slots r (amendRecord f r) := by
    obtain ⟨-, hnodup, -⟩ := hinv
    exact mapRecord_eq hnodup hr
  obtain ⟨hpos, hout, hin⟩ := position_answered (kind := kindAmend) (h := h) (s := s) (delay := f.delay) (key := f.key)
    (u := retable (mapRecord f.key (amendRecord f) s.table.slots) s) rfl
  refine ⟨_, amendRecord f r, _, (exec_amendService hl h f).trans (by rw [happ]), amendRecord_amended hf r, ?_, hpos, hout, hin,
    answered_quietly (retable_sameBut _ s) (by simp) (by simp) (by simp)⟩
  rw [← hslots]
  exact retabled_answered rfl rfl rfl rfl rfl

section
variable {h : Header} {key : Nat} {s : State}

theorem acceptRetire_zero (hk : key = 0) : acceptRetire h key s = answer kindRetire h 6 0 s := by
  subst hk; rfl

theorem acceptRetire_absent (hk : keyOK key = true) (hr : findRecord key s.table.slots = none) :
    acceptRetire h key s = answer kindRetire h 3 0 s := by
  simp only [acceptRetire, hk, hr, if_true]; rfl

theorem acceptRetire_present {r : Record} (hk : keyOK key = true) (hr : findRecord key s.table.slots = some r) :
    acceptRetire h key s = answer kindRetire h 0 (leavingCount (if r.isLive then retireRecord key s else s).table.slots)
      (if r.isLive then retireRecord key s else s) := by
  simp only [acceptRetire, hk, hr, if_true]; rfl

end

/-- The window a record that becomes LEAVING opens or restarts (R55, R56). -/
theorem touchWindow_window {s : State} (h : 0 < s.settings.sweepLength) : (touchWindow s).table.window = windowAfterLeaving s := by
  unfold touchWindow windowAfterLeaving
  have hne : ¬ 1000 * s.settings.sweepLength = 0 := by omega
  cases s.table.window <;> simp only [hne, if_false] <;> rfl

theorem retireRecord_windowed {key : Nat} {s : State} (h : 0 < s.settings.sweepLength) :
    retireRecord key s = retable (mapRecord key (Record.leave .retired) s.table.slots) (touchWindow s) := by
  unfold retireRecord
  rw [sweepAtZero_eq, if_neg (by simp; omega), touchWindow_slots]

theorem retireRecord_swept {key : Nat} {s : State} (h : s.settings.sweepLength = 0) :
    retireRecord key s = sweep (retable (mapRecord key (Record.leave .retired) s.table.slots) s) := by
  unfold retireRecord
  rw [sweepAtZero_eq, touchWindow_zero h, if_pos ⟨rfl, h⟩]

theorem retireRecord_results (key : Nat) (s : State) : (retireRecord key s).results = s.results := by
  unfold retireRecord
  rw [sweepAtZero_eq]
  split <;> simp

/-- Settles O20. -/
theorem retireService : Obligations.RetireService := by
  intro h key s hl hinv hk
  refine ⟨_, exec_retireService hl h key, fun h0 => ?_, fun h0 hn => ?_, fun r h0 hr => ?_⟩
  · rw [acceptRetire_zero h0]
    exact ⟨answered_settle _ _ _ _ _, answer_framed _ _ _ _ _⟩
  · rw [acceptRetire_absent (by simp [keyOK, hk]; omega) hn]
    exact ⟨answered_settle _ _ _ _ _, answer_framed _ _ _ _ _⟩
  rw [acceptRetire_present (by simp [keyOK, hk]; omega) hr]
  have hslots : mapRecord key (Record.leave .retired) s.table.slots = replacedIn s.table.slots r (leaving .retired r) := by
    obtain ⟨-, hnodup, -⟩ := hinv
    exact mapRecord_eq hnodup hr
  by_cases hlife : r.life = .live
  · have hlive : r.isLive = true := by simp [Record.isLive, hlife]
    rw [if_pos hlive]
    refine ⟨?_, fun hn => absurd hlife hn, fun _ hlen => ?_, fun _ hlen => ?_⟩
    · unfold State.records
      rw [settle_table, answer_table]
      exact answered_after (retireRecord_results key s)
    · rw [retireRecord_windowed hlen, ← hslots]
      refine ⟨retabled_answered (by simp) (by simp) (by simp) (by simp) (by simp), ?_, ?_⟩
      · rw [settle_table, answer_table, retable_table]
        exact touchWindow_window hlen
      · exact answered_quietly ((touchWindow_sameBut s).trans (retable_sameBut _ _)) (by simp) (by simp) (by simp)
    · have hmid : TableInv (retable (mapRecord key (Record.leave .retired) s.table.slots) s) :=
        mapRecord_tableInv hinv key (Record.leave .retired) (fun _ => rfl) (fun _ => rfl) fun _ _ _ hok => leave_ok _ hok
      have hcounts := sweep_counts hmid
      rw [retireRecord_swept hlen, ← hslots]
      refine ⟨by simp [sweep_table, keepLive_eq], by simp [sweep_table, keepLive_eq], by simp [sweep_table], fun p hp => ?_, ?_⟩
      · rw [settle_dir_counts, answer_dir]
        exact hcounts p hp
      · exact answered_quietly ((retable_sameBut _ s).trans (sweep_sameBut _)) (by simp [tableParts]) (by simp [tableParts])
          (by simp [tableParts])
  · have hleaving : r.isLive = false := by simp [Record.isLive, hlife]
    rw [if_neg (by simp [hleaving])]
    refine ⟨?_, fun _ => answer_framed _ _ _ _ _, fun hx => absurd hx hlife, fun hx => absurd hx hlife⟩
    unfold State.records
    rw [settle_table, answer_table]
    exact answered_settle _ _ _ _ _

end Sys2Proof.Machine

/-! SUPPORT. A change of the board state: what it leaves of the Paint Engine, what it marks, and the requests that stand after
the arbiter's decision. -/

namespace Sys2Proof.Machine

/-! ### Requests after the decision -/

/-- A grant serves one request: it takes the clock request or leaves it. -/
theorem grant_clock {slot : Slot} {s : State} (h : s.paint.clockRequest = true) :
    (grant slot s).paint.clockRequest = true ∨ ∃ out, (grant slot s).paint.job = some (.clock out) := by
  cases slot with
  | table =>
    left
    simp only [grant]
    split
    · exact h
    · exact h
  | scroll => exact .inl h
  | clock => exact .inr ⟨_, rfl⟩
  | banner =>
    left
    simp only [grant]
    split <;> exact h

/-- A grant takes the banner's compose or leaves it. -/
theorem grant_compose {slot : Slot} {s : State} (h : s.paint.bannerCompose = true) :
    (grant slot s).paint.bannerCompose = true ∨ ∃ out, (grant slot s).paint.job = some (.bannerCompose out) := by
  cases slot with
  | table =>
    left
    simp only [grant]
    split
    · exact h
    · exact h
  | scroll => exact .inl h
  | clock => exact .inl h
  | banner =>
    right
    simp only [grant, h, if_true]
    exact ⟨_, rfl⟩

/-- What the decision does of a request that a grant either leaves or turns into a job. -/
theorem decideGrant_request {request : State → Prop} {granted : Job → Prop} {s : State} (h : request s)
    (hgrant : ∀ slot, request (grant slot s) ∨ ∃ j, (grant slot s).paint.job = some j ∧ granted j) :
    request (decideGrant s) ∨ (s.paint.job = none ∧ ∃ j, (decideGrant s).paint.job = some j ∧ granted j) := by
  unfold decideGrant
  split
  · exact .inl h
  · next hj =>
    split
    · next slot _ => exact (hgrant slot).imp_right fun hx => ⟨hj, hx⟩
    · exact .inl h

/-- A clock request that an event raises stands after it or has been granted in it (R132). -/
theorem settle_clockRaised {s u : State} (hj : u.paint.job = none → s.paint.job = none) (h : u.paint.clockRequest = true) :
    ClockRaised s (settle u) := by
  have hdec := decideGrant_request (request := fun v => v.paint.clockRequest = true) (granted := fun j => ∃ out, j = .clock out)
    (s := judgeRequest u) (by simpa using h) fun slot => by
      simpa using grant_clock (slot := slot) (s := judgeRequest u) (by simpa using h)
  unfold settle ClockRaised
  simp only [judgeRequest_clockRequest, judgeRequest_job] at hdec ⊢
  rcases hdec with hc | ⟨hn, j, hjob, out, rfl⟩
  · exact .inl hc
  · exact .inr ⟨hj hn, out, hjob⟩

/-- A banner compose that an event raises stands after it or has been granted in it (R140). -/
theorem settle_composeRaised {s u : State} (hj : u.paint.job = none → s.paint.job = none) (h : u.paint.bannerCompose = true) :
    ComposeRaised s (settle u) := by
  have hdec := decideGrant_request (request := fun v => v.paint.bannerCompose = true)
    (granted := fun j => ∃ out, j = .bannerCompose out) (s := judgeRequest u) (by simpa using h) fun slot => by
      simpa using grant_compose (slot := slot) (s := judgeRequest u) (by simpa using h)
  unfold settle ComposeRaised
  simp only [judgeRequest_bannerCompose, judgeRequest_job] at hdec ⊢
  rcases hdec with hc | ⟨hn, j, hjob, out, rfl⟩
  · exact .inl hc
  · exact .inr ⟨hj hn, out, hjob⟩

/-! ### The board state of the three inputs -/

/-- The Selector derives the state of R154's table. -/
theorem boardIs_iff {station : StationState} {freshness : Freshness} {valid : Bool} {b : BoardState} :
    BoardIs station freshness valid b ↔ b = deriveBoard station freshness valid := by
  unfold BoardIs deriveBoard
  cases station with
  | dark => simp
  | alert => simp
  | normal => cases freshness <;> cases valid <;> simp
  | closed => cases freshness <;> cases valid <;> simp

/-- A fresh feed never gives UNAVAILABLE. -/
theorem deriveBoard_fresh (station : StationState) (valid : Bool) : deriveBoard station .fresh valid ≠ .unavailable := by
  unfold deriveBoard
  split_ifs <;> simp_all

/-- Valid time never gives STARTING. -/
theorem deriveBoard_valid (station : StationState) (freshness : Freshness) : deriveBoard station freshness true ≠ .starting := by
  unfold deriveBoard
  split_ifs <;> simp_all

theorem deriveBoard_lapsed (station : StationState) (valid : Bool) :
    deriveBoard station .lapsed valid = deriveBoard station .fresh valid ∨ deriveBoard station .lapsed valid = .unavailable := by
  cases station with
  | dark => exact .inl rfl
  | alert => exact .inl rfl
  | normal => exact .inr rfl
  | closed => exact .inr rfl

theorem deriveBoard_invalid (station : StationState) (freshness : Freshness) :
    deriveBoard station freshness false = deriveBoard station freshness true ∨
      deriveBoard station freshness false = .starting := by
  cases station with
  | dark => exact .inl rfl
  | alert => exact .inl rfl
  | normal =>
    cases freshness with
    | fresh => exact .inr rfl
    | lapsed => exact .inl rfl
  | closed =>
    cases freshness with
    | fresh => exact .inr rfl
    | lapsed => exact .inl rfl

/-! ### What a change of board state leaves -/

/-- The paint state after a change of board state that takes the banner from one line to another: the lines of TABLE marked,
the clock requested, the banner's compose with its line, and the scrolls stopped whose line has gone (R137, R140, R155). -/
def boardPaint (before now : Option Nat) (lines : List Nat) (p : Paint) : Paint :=
  { p with
    dirty := setInsertAll lines p.dirty
    clockRequest := true
    bannerCompose := now.isSome
    bannerScroll := if now = before then p.bannerScroll else .still
    bannerStep := if now = before then p.bannerStep else false
    callingScroll := if now = some 1 ∧ before ≠ some 1 then .still else p.callingScroll
    callingStep := if now = some 1 ∧ before ≠ some 1 then false else p.callingStep }

theorem bannerLine_congr {s t : State} (hboard : t.board = s.board) (hgeo : t.geometry = s.geometry)
    (hbanner : t.paint.banner = s.paint.banner) : bannerLine t = bannerLine s := by
  simp [bannerLine, State.lines, hboard, hgeo, hbanner]

theorem rehomeBanner_eq (before : Option Nat) (s : State) : rehomeBanner before s = s.withPaint { s.paint with
    bannerCompose := (bannerLine s).isSome
    bannerScroll := if bannerLine s = before then s.paint.bannerScroll else .still
    bannerStep := if bannerLine s = before then s.paint.bannerStep else false } := by
  unfold rehomeBanner
  by_cases h : bannerLine s = before
  · simp only [if_pos h]
  · simp only [if_neg h]
    rfl

theorem yieldCallingLine_eq (before : Option Nat) (s : State) : yieldCallingLine before s = s.withPaint { s.paint with
    callingScroll := if bannerLine s = some 1 ∧ before ≠ some 1 then .still else s.paint.callingScroll
    callingStep := if bannerLine s = some 1 ∧ before ≠ some 1 then false else s.paint.callingStep } := by
  have hcond : (bannerLine s = some 1 && before != some 1) = true ↔ bannerLine s = some 1 ∧ before ≠ some 1 := by simp
  unfold yieldCallingLine
  by_cases h : bannerLine s = some 1 ∧ before ≠ some 1
  · simp only [if_pos (hcond.2 h), if_pos h]
    rfl
  · simp only [if_neg (fun hc => h (hcond.1 hc)), if_neg h]
    rfl

/-- The banner's part and the calling scroll's part of a change of line, one after the other. -/
theorem yield_rehome_eq (before : Option Nat) (s : State) :
    yieldCallingLine before (rehomeBanner before s) = s.withPaint { s.paint with
      bannerCompose := (bannerLine s).isSome
      bannerScroll := if bannerLine s = before then s.paint.bannerScroll else .still
      bannerStep := if bannerLine s = before then s.paint.bannerStep else false
      callingScroll := if bannerLine s = some 1 ∧ before ≠ some 1 then .still else s.paint.callingScroll
      callingStep := if bannerLine s = some 1 ∧ before ≠ some 1 then false else s.paint.callingStep } := by
  have hhome : bannerLine (rehomeBanner before s) = bannerLine s := by
    rw [rehomeBanner_eq]
    exact bannerLine_congr rfl rfl rfl
  rw [yieldCallingLine_eq, hhome, rehomeBanner_eq]
  rfl

theorem applyBoard_eq (new : BoardState) (s : State) : applyBoard new s = revokeJob ((s.withBoard new).withPaint
    (boardPaint (bannerLine s) (bannerLine (s.withBoard new)) (tableLines s) s.paint)) := by
  have hline : bannerLine (raiseClock (markLines (tableLines s) (s.withBoard new))) = bannerLine (s.withBoard new) :=
    bannerLine_congr rfl rfl rfl
  show revokeJob (yieldCallingLine (bannerLine s)
    (rehomeBanner (bannerLine s) (raiseClock (markLines (tableLines s) (s.withBoard new))))) = _
  rw [yield_rehome_eq, hline]
  rfl

/-- A job revoked keeps its slot and places nothing; nothing else changes (R130). -/
theorem revokeJob_eq (s : State) : ∃ job, revokeJob s = s.withPaint { s.paint with job := job } ∧
    job.map Job.slot = s.paint.job.map Job.slot := by
  have hkeep : s = s.withPaint { s.paint with job := s.paint.job } := rfl
  unfold revokeJob
  split
  · exact ⟨_, hkeep, rfl⟩
  · next j hj =>
    split
    · split
      · exact ⟨_, hkeep, rfl⟩
      · refine ⟨some j.void, rfl, ?_⟩
        rw [hj]
        cases j <;> rfl
    · exact ⟨_, hkeep, rfl⟩

/-- A change of board state, whole: the board, and the Paint Engine's share of it, with the running job kept or revoked. -/
theorem applyBoard_paint (new : BoardState) (s : State) : ∃ job, applyBoard new s = (s.withBoard new).withPaint
      { boardPaint (bannerLine s) (bannerLine (s.withBoard new)) (tableLines s) s.paint with job := job } ∧
    job.map Job.slot = s.paint.job.map Job.slot := by
  rw [applyBoard_eq]
  exact revokeJob_eq _

/-! ### A step that may repaint the board -/

/-- A step of an event that may change the board state: beside the board it touches only what a repaint touches, and it marks
the lines of TABLE exactly when it repaints (R155). -/
def Repaints (repainted : Bool) (s t : State) : Prop :=
  SameBut [.feed, .time, .board, .dirty, .requests, .arbiter, .callingScroll, .bannerScroll] s t ∧
    (∀ n, n ∈ t.paint.dirty ↔ n ∈ s.paint.dirty ∨ (repainted = true ∧ n + 1 < s.lines)) ∧
    (t.paint.job = none → s.paint.job = none) ∧ (s.paint.clockRequest = true → t.paint.clockRequest = true)

theorem Repaints.trans {a b : Bool} {s t u : State} (h : Repaints a s t) (g : Repaints b t u) : Repaints (a || b) s u := by
  obtain ⟨h1, h2, h3, h4⟩ := h
  obtain ⟨g1, g2, g3, g4⟩ := g
  have hgeo : t.geometry = s.geometry := h1 .geometry (by simp)
  have hlines : t.lines = s.lines := by unfold State.lines; rw [hgeo]
  refine ⟨(h1.trans g1).mono fun p hp => (List.mem_append.1 hp).elim id id, fun n => ?_, fun hj => h3 (g3 hj), fun hc => g4 (h4 hc)⟩
  rw [g2, h2, hlines]
  simp only [Bool.or_eq_true]
  tauto

/-- A step that leaves the Paint Engine and the board repaints nothing. -/
theorem repaints_of_sameBut {s t : State} (h : SameBut [.feed, .time] s t) : Repaints false s t := by
  have hd : t.paint.dirty = s.paint.dirty := h .dirty (by simp)
  obtain ⟨hj, -⟩ : Part.arbiter.same s t := h .arbiter (by simp)
  obtain ⟨-, hc, -⟩ : Part.requests.same s t := h .requests (by simp)
  exact ⟨h.mono (by simp), fun n => by simp [hd], fun hn => hj ▸ hn, fun hr => hc ▸ hr⟩

theorem withTime_sameBut (v : Timekeeper) (s : State) : SameBut [.time] s (s.withTime v) := by
  intro p hp
  cases p <;> simp_all [Part.same]

theorem withFeed_sameBut (v : FeedReceiver) (s : State) : SameBut [.feed] s (s.withFeed v) := by
  intro p hp
  cases p <;> simp_all [Part.same]

theorem repaints_withTime (v : Timekeeper) (s : State) : Repaints false s (s.withTime v) :=
  repaints_of_sameBut ((withTime_sameBut v s).mono (by simp))

theorem repaints_withFeed (v : FeedReceiver) (s : State) : Repaints false s (s.withFeed v) :=
  repaints_of_sameBut ((withFeed_sameBut v s).mono (by simp))

theorem applyBoard_repaints (new : BoardState) (s : State) : Repaints true s (applyBoard new s) := by
  obtain ⟨job, heq, hslot⟩ := applyBoard_paint new s
  rw [heq]
  refine ⟨fun p hp => ?_, fun n => ?_, fun hj => ?_, fun _ => rfl⟩
  · cases p <;> simp_all [Part.same, boardPaint]
  · have : n < s.lines - 1 ↔ n + 1 < s.lines := by omega
    simp [boardPaint, tableLines, this, or_comm]
  · have hnone : job = none := hj
    rw [hnone] at hslot
    simpa using hslot.symm

/-- The Selector repaints exactly when the board state changes (R154, R155). -/
theorem selectBoard_repaints (s : State) :
    ∃ repainted, Repaints repainted s (selectBoard s) ∧ (repainted = true ↔ (selectBoard s).board ≠ s.board) ∧
      (selectBoard s).board = deriveBoard s.feed.station s.time.freshness s.time.valid ∧ (selectBoard s).time = s.time ∧
      (selectBoard s).feed = s.feed := by
  unfold selectBoard
  dsimp only
  split
  · next h => exact ⟨false, repaints_of_sameBut (.refl _ s), by simp, h.symm, rfl, rfl⟩
  · next h =>
    obtain ⟨job, heq, -⟩ := applyBoard_paint (deriveBoard s.feed.station s.time.freshness s.time.valid) s
    have hb := applyBoard_repaints (deriveBoard s.feed.station s.time.freshness s.time.valid) s
    rw [heq] at hb ⊢
    exact ⟨true, hb, by simpa using h, rfl, rfl, rfl⟩

end Sys2Proof.Machine

/-! SUPPORT and O27, O28. The stages of a minute event or step event, and the station time that an overhead record brings. -/

namespace Sys2Proof.Machine

/-! ### Slots related one by one -/

theorem slotsRelate_mapRecords {R : Record → Record → Prop} {g : Record → Record} (h : ∀ r, R r (g r))
    (slots : List (Option Record)) : SlotsRelate R slots (mapRecords g slots) := by
  induction slots with
  | nil => exact .nil
  | cons o rest ih =>
    refine .cons ?_ ih
    cases o with
    | none => exact .none
    | some r => exact .some (h r)

theorem slotsRelate_refl {R : Record → Record → Prop} (h : ∀ r, R r r) (slots : List (Option Record)) :
    SlotsRelate R slots slots := by
  induction slots with
  | nil => exact .nil
  | cons o rest ih =>
    refine .cons ?_ ih
    cases o with
    | none => exact .none
    | some r => exact .some (h r)

/-- A change of the records in their slots makes a record LEAVING exactly when it does so to a LIVE record of the table. -/
theorem someLeft_mapRecords (g : Record → Record) (slots : List (Option Record)) :
    SomeLeft slots (mapRecords g slots) ↔ ∃ r ∈ recordsOf slots, r.life = .live ∧ (g r).life ≠ .live := by
  constructor
  · rintro ⟨i, r, new, hr, hlive, hnew, hleft⟩
    have hg : (mapRecords g slots)[i]? = some (some (g r)) := by simp [mapRecords, hr]
    rw [hg] at hnew
    cases hnew
    exact ⟨r, mem_recordsOf.2 (List.mem_of_getElem? hr), hlive, hleft⟩
  · rintro ⟨r, hr, hlive, hleft⟩
    obtain ⟨i, hi⟩ := List.mem_iff_getElem?.1 (mem_recordsOf.1 hr)
    exact ⟨i, r, g r, hi, hlive, by simp [mapRecords, hi], hleft⟩

/-! ### The rollover and the ageing of a record -/

theorem rollRecord_eq (r : Record) : rollRecord r = rolledOver r := by
  by_cases h : r.life = .live <;> simp [rollRecord, rolledOver, Record.isLive, Record.leave, leaving, h]

theorem rollRecord_life (r : Record) : (rollRecord r).life = .live ↔ r.life = .live ∧ 0 ≤ r.scheduled := by
  unfold rollRecord
  by_cases h : 0 ≤ r.scheduled <;> by_cases hl : r.life = .live <;> simp [h, hl, Record.isLive, Record.leave]

/-- The model's test of an aged record is R44's. -/
theorem timedOut_iff (set : Settings) (now : Nat) (r : Record) : timedOut set now r = true ↔ TimesOut set now r := by
  have hplain : r.state = .scheduled → orderKey r = r.scheduled := fun h => orderKey_plain (.inl (by simp [h]))
  have hest : r.state = .estimated → orderKey r = r.scheduled + max 0 (r.delay.getD 0) := by
    intro h
    cases hd : r.delay with
    | none => simp [orderKey, h, hd]
    | some d =>
      simp only [orderKey, h, hd, Option.getD_some]
      split <;> omega
  unfold timedOut TimesOut
  rw [Bool.and_eq_true, show r.isLive = true ↔ r.life = .live by simp [Record.isLive]]
  cases hs : r.state with
  | scheduled => simp [hplain hs]
  | estimated => simp [hest hs]
  | unknownDelay => simp
  | cancelled => simp

theorem ageRecord_aged (set : Settings) (now : Nat) (r : Record) : AgedRecord set now r (ageRecord set now r) := by
  refine ⟨fun h => ?_, fun h => ?_⟩
  · exact if_pos ((timedOut_iff set now r).2 h)
  · exact if_neg fun hc => h ((timedOut_iff set now r).1 hc)

theorem ageRecord_life (set : Settings) (now : Nat) (r : Record) :
    (ageRecord set now r).life = .live ↔ r.life = .live ∧ timedOut set now r = false := by
  unfold ageRecord
  cases timedOut set now r <;> simp [Record.leave]

/-! ### The stages of an event -/

/-- Whether stage 1 rolls the records over (R39, R41). -/
def rollsOver (p : OriginPassage) (rollHold : Bool) : Bool := decide (p = .forward) && !rollHold

/-- The rollover hold after stage 1 (R39, R40, R41). -/
def heldAfter (p : OriginPassage) (rollHold : Bool) : Bool :=
  match p with
  | .no => rollHold
  | .forward => false
  | .backward => true

/-- The slots after stage 1. -/
def rolledSlots (rolled : Bool) (slots : List (Option Record)) : List (Option Record) :=
  if rolled then mapRecords rollRecord slots else slots

/-- "Now" after stage 2 (R37). -/
def nowAfter (p : OriginPassage) (s : State) : Nat :=
  if heldAfter p s.time.rollHold then 0 else serviceMinute s.settings.origin s.time.minute

/-- The slots after stage 3. -/
def agedSlots (p : OriginPassage) (s : State) : List (Option Record) :=
  mapRecords (ageRecord s.settings (nowAfter p s)) (rolledSlots (rollsOver p s.time.rollHold) s.table.slots)

/-- Whether the stages have made a record LEAVING. -/
def stagesLeft (p : OriginPassage) (s : State) : Bool :=
  (rollsOver p s.time.rollHold && someRollOff s.table.slots) ||
    someTimeOut s.settings (nowAfter p s) (rolledSlots (rollsOver p s.time.rollHold) s.table.slots)

theorem slotsRelate_rolled (rolled : Bool) (slots : List (Option Record)) :
    SlotsRelate (fun r new => new = if rolled then rolledOver r else r) slots (rolledSlots rolled slots) := by
  cases rolled with
  | false => exact slotsRelate_refl (R := fun r new => new = if false = true then rolledOver r else r) (fun _ => rfl) slots
  | true => exact slotsRelate_mapRecords (fun r => by simp [rollRecord_eq]) slots

/-- The stages leave a record LEAVING exactly when the rollover or the ageing found one. -/
theorem stagesLeft_iff (p : OriginPassage) (s : State) : stagesLeft p s = true ↔ SomeLeft s.table.slots (agedSlots p s) := by
  have hage (r : Record) : (ageRecord s.settings (nowAfter p s) r).life ≠ .live ↔
      r.life ≠ .live ∨ timedOut s.settings (nowAfter p s) r = true := by
    rw [ne_eq, ageRecord_life, not_and_or, Bool.not_eq_false]
  have hlive (r : Record) (h : timedOut s.settings (nowAfter p s) r = true) : r.life = .live :=
    ((timedOut_iff _ _ _).1 h).1
  unfold stagesLeft agedSlots
  cases rollsOver p s.time.rollHold with
  | false =>
    simp only [rolledSlots, Bool.false_and, Bool.false_or, Bool.false_eq_true, if_false, someTimeOut, List.any_eq_true]
    rw [someLeft_mapRecords]
    refine exists_congr fun r => and_congr_right fun _ => ⟨fun h => ⟨hlive r h, (hage r).2 (.inr h)⟩, fun ⟨hl, hn⟩ => ?_⟩
    exact ((hage r).1 hn).resolve_left (fun hx => hx hl)
  | true =>
    have hcomp : mapRecords (ageRecord s.settings (nowAfter p s)) (mapRecords rollRecord s.table.slots)
        = mapRecords (fun r => ageRecord s.settings (nowAfter p s) (rollRecord r)) s.table.slots := by
      simp [mapRecords, Function.comp_def]
    simp only [rolledSlots, Bool.true_and, if_true, Bool.or_eq_true]
    rw [hcomp, someLeft_mapRecords]
    simp only [someTimeOut, someRollOff, recordsOf_mapRecords, List.any_map, List.any_eq_true, Function.comp_apply,
      Bool.and_eq_true, decide_eq_true_eq, Record.isLive]
    constructor
    · rintro (⟨r, hr, hl, hs⟩ | ⟨r, hr, ht⟩)
      · exact ⟨r, hr, hl, (hage _).2 (.inl fun hx => by have := ((rollRecord_life r).1 hx).2; omega)⟩
      · exact ⟨r, hr, ((rollRecord_life r).1 (hlive _ ht)).1, (hage _).2 (.inr ht)⟩
    · rintro ⟨r, hr, hl, hn⟩
      rcases (hage _).1 hn with hx | ht
      · refine .inl ⟨r, hr, hl, ?_⟩
        by_contra hs
        exact hx ((rollRecord_life r).2 ⟨hl, by omega⟩)
      · exact .inr ⟨r, hr, ht⟩

/-! ### A pass over the records -/

/-- A pass over the records: the slots become `l` under their running order, the window is touched when a record was left, and
lines are marked for the change. -/
def Passed (left : Bool) (l : List (Option Record)) (s t : State) : Prop :=
  SameBut [.time, .slots, .order, .window, .dirty] s t ∧ t.table.slots = l ∧
    t.table.order = runningOrder s.settings.filter l ∧ t.table.window = (touchIf left s).table.window ∧
    ∀ n, n ∈ t.paint.dirty ↔ n ∈ tableMarks s s.table.slots l ∨ n ∈ s.paint.dirty

theorem touchIf_sameBut (left : Bool) (s : State) : SameBut [.window] s (touchIf left s) := by
  cases left with
  | false => exact .refl _ s
  | true => exact touchWindow_sameBut s

theorem touchWindow_window_congr {s t : State} (he : t.elapsed = s.elapsed) (hs : t.settings = s.settings)
    (hw : t.table.window = s.table.window ∨ t.table.window = (touchWindow s).table.window) :
    (touchWindow t).table.window = (touchWindow s).table.window := by
  by_cases hlen : s.settings.sweepLength = 0
  · rw [touchWindow_zero hlen] at hw ⊢
    rw [touchWindow_zero (hs ▸ hlen)]
    exact hw.elim id id
  · have hpos : 0 < s.settings.sweepLength := by omega
    rw [touchWindow_window hpos] at hw ⊢
    rw [touchWindow_window (hs.symm ▸ hpos)]
    unfold windowAfterLeaving at hw ⊢
    rw [he, hs]
    rcases hw with hw | hw
    · rw [hw]
    · rw [hw]
      cases s.table.window with
      | closed => simp; omega
      | opened expiry cap => simp

theorem touchIf_window_congr {left : Bool} {s t : State} (he : t.elapsed = s.elapsed) (hs : t.settings = s.settings)
    (hw : t.table.window = s.table.window) : (touchIf left t).table.window = (touchIf left s).table.window := by
  cases left with
  | false => exact hw
  | true => exact touchWindow_window_congr he hs (.inl hw)

/-- Two passes touch the window as one does (R55, R56). -/
theorem touchIf_again {first second : Bool} {s t : State} (he : t.elapsed = s.elapsed) (hs : t.settings = s.settings)
    (hw : t.table.window = (touchIf first s).table.window) :
    (touchIf second t).table.window = (touchIf (first || second) s).table.window := by
  cases second with
  | false => simpa [touchIf] using hw
  | true =>
    cases first with
    | false => exact touchWindow_window_congr he hs (.inl hw)
    | true => exact touchWindow_window_congr he hs (.inr hw)

theorem retable_passed {left : Bool} {l : List (Option Record)} {s : State} (v : Timekeeper)
    (hord : s.table.order = runningOrder s.settings.filter s.table.slots) :
    Passed left l s (retable l (touchIf left (s.withTime v))) := by
  have htouch := touchIf_sameBut left (s.withTime v)
  have hpaint : (touchIf left (s.withTime v)).paint = s.paint := by unfold touchIf; split <;> simp
  have hset : (touchIf left (s.withTime v)).settings = s.settings := by unfold touchIf; split <;> simp
  have hgeo : (touchIf left (s.withTime v)).geometry = s.geometry := by unfold touchIf; split <;> simp
  have horder : (touchIf left (s.withTime v)).table.order = s.table.order := by unfold touchIf; split <;> simp
  have hslots : (touchIf left (s.withTime v)).table.slots = s.table.slots := by unfold touchIf; split <;> simp
  refine ⟨(((withTime_sameBut v s).trans htouch).trans (retable_sameBut l _)).mono (by simp), rfl, ?_, ?_, fun n => ?_⟩
  · rw [retable_table, hset]
  · exact touchIf_window_congr rfl rfl rfl
  · rw [retable_paint, mem_setInsertAll, hpaint]
    unfold changeMarks tableMarks
    rw [hset, hgeo, horder, hslots, hord]

theorem tableMarks_self (s : State) (slots : List (Option Record)) : tableMarks s slots slots = [] := by
  unfold tableMarks
  rw [orderMarks_self, contentMarks_self]
  rfl

/-- A stage that leaves the records. -/
theorem withTime_passed (v : Timekeeper) {s : State} (hord : s.table.order = runningOrder s.settings.filter s.table.slots) :
    Passed false s.table.slots s (s.withTime v) :=
  ⟨(withTime_sameBut v s).mono (by simp), rfl, hord, rfl, fun n => by rw [tableMarks_self]; simp⟩

theorem passOrigin_passed (p : OriginPassage) {s : State} (hord : s.table.order = runningOrder s.settings.filter s.table.slots) :
    Passed (passOrigin p s).2 (rolledSlots (rollsOver p s.time.rollHold) s.table.slots) s (passOrigin p s).1 ∧
      (passOrigin p s).2 = (rollsOver p s.time.rollHold && someRollOff s.table.slots) ∧
      (passOrigin p s).1.time = { s.time with rollHold := heldAfter p s.time.rollHold } := by
  cases p with
  | no => exact ⟨withTime_passed s.time hord, rfl, rfl⟩
  | backward => exact ⟨withTime_passed _ hord, rfl, rfl⟩
  | forward =>
    unfold passOrigin
    dsimp only
    cases hh : s.time.rollHold with
    | true => exact ⟨withTime_passed _ hord, rfl, rfl⟩
    | false =>
      rw [if_neg (by simp), rollover_eq]
      refine ⟨retable_passed s.time hord, rfl, ?_⟩
      have htime : (touchIf (someRollOff s.table.slots) s).time = s.time := by unfold touchIf; split <;> simp
      rw [retable_time, htime, heldAfter, ← hh]

/-- The ageing, from a state whose time has been recomputed. -/
theorem ageTable_passed {s : State} (v : Timekeeper) (hord : s.table.order = runningOrder s.settings.filter s.table.slots) :
    Passed (someTimeOut s.settings v.now s.table.slots) (mapRecords (ageRecord s.settings v.now) s.table.slots) s
        (ageTable (s.withTime v)).1 ∧
      (ageTable (s.withTime v)).2 = someTimeOut s.settings v.now s.table.slots ∧ (ageTable (s.withTime v)).1.time = v := by
  rw [ageTable_eq]
  refine ⟨retable_passed v hord, rfl, ?_⟩
  have htime (left : Bool) : (touchIf left (s.withTime v)).time = v := by unfold touchIf; split <;> simp
  rw [retable_time, htime]

/-- The records after stage 3, before any sweep. -/
def agedTable (p : OriginPassage) (s : State) : State := (ageTable (recomputeNow (passOrigin p s).1)).1

theorem timeStages_eq (p : OriginPassage) (s : State) : timeStages p s =
    repaintRequests (sweepAtZero ((passOrigin p s).2 || (ageTable (recomputeNow (passOrigin p s).1)).2) (agedTable p s)) := rfl

/-- Stages 1 to 3 (R37, R39, R40, R42, R44). -/
theorem agedTable_facts (p : OriginPassage) {s : State} (hinv : TableInv s) :
    SameBut [.time, .slots, .order, .window, .dirty] s (agedTable p s) ∧ (agedTable p s).table.slots = agedSlots p s ∧
      (agedTable p s).table.window = (touchIf (stagesLeft p s) s).table.window ∧
      (∀ n, n ∈ (agedTable p s).paint.dirty ↔
        n ∈ tableMarks s s.table.slots (rolledSlots (rollsOver p s.time.rollHold) s.table.slots) ∨
          n ∈ tableMarks s (rolledSlots (rollsOver p s.time.rollHold) s.table.slots) (agedSlots p s) ∨ n ∈ s.paint.dirty) ∧
      (agedTable p s).time = { s.time with rollHold := heldAfter p s.time.rollHold, now := nowAfter p s } ∧
      ((passOrigin p s).2 || (ageTable (recomputeNow (passOrigin p s).1)).2) = stagesLeft p s := by
  obtain ⟨-, -, -, hord, -⟩ := hinv
  obtain ⟨⟨hsame, hslots, horder, hwindow, hdirty⟩, hleft, htime⟩ := passOrigin_passed p hord
  have hset : (passOrigin p s).1.settings = s.settings := hsame .settings (by simp)
  have hgeo : (passOrigin p s).1.geometry = s.geometry := hsame .geometry (by simp)
  have helapsed : (passOrigin p s).1.elapsed = s.elapsed := hsame .elapsed (by simp)
  have hnow : recomputeNow (passOrigin p s).1 = (passOrigin p s).1.withTime
      { s.time with rollHold := heldAfter p s.time.rollHold, now := nowAfter p s } := by
    unfold recomputeNow nowAfter
    rw [htime, hset]
  obtain ⟨⟨asame, aslots, -, awindow, adirty⟩, aleft, atime⟩ := ageTable_passed (s := (passOrigin p s).1)
    { s.time with rollHold := heldAfter p s.time.rollHold, now := nowAfter p s } (by rw [horder, hset, hslots])
  rw [← hnow] at asame aslots awindow adirty aleft atime
  have hmarks (a b : List (Option Record)) : tableMarks (passOrigin p s).1 a b = tableMarks s a b := by
    unfold tableMarks; rw [hset, hgeo]
  refine ⟨(hsame.trans asame).mono fun x hx => (List.mem_append.1 hx).elim id id, ?_, ?_, fun n => ?_, atime, ?_⟩
  · exact aslots.trans (by rw [hset, hslots]; rfl)
  · refine awindow.trans ?_
    rw [touchIf_again helapsed hset hwindow, hleft, hset, hslots]
    rfl
  · refine (adirty n).trans ?_
    rw [hmarks, hdirty, hset, hslots]
    exact or_left_comm
  · rw [hleft, aleft, hset, hslots]
    rfl

/-- What the stages leave of a state before the arbiter's decision, in the terms of `StagesTaken`. -/
def StagesLeave (rolled : Bool) (s t : State) : Prop :=
  ∃ mid aged : List (Option Record),
    SlotsRelate (fun r new => new = if rolled then rolledOver r else r) s.table.slots mid ∧
    SlotsRelate (AgedRecord s.settings t.time.now) mid aged ∧
    (¬ SomeLeft s.table.slots aged → t.table.slots = aged ∧ t.table.window = s.table.window ∧ t.dir.counts = s.dir.counts) ∧
    (SomeLeft s.table.slots aged → 0 < s.settings.sweepLength → t.table.slots = aged ∧
      t.table.window = windowAfterLeaving s ∧ t.dir.counts = s.dir.counts) ∧
    (SomeLeft s.table.slots aged → s.settings.sweepLength = 0 → t.table.slots = sweptSlots aged ∧
      t.table.window = .closed ∧ CountsSwept aged s t) ∧
    t.table.order = runningOrder s.settings.filter t.table.slots ∧ t.paint.clockRequest = true ∧
    ∀ n, n ∈ t.paint.dirty ↔ ((n + 1 < s.lines ∧ n ≠ 1) ∨ n ∈ tableMarks s s.table.slots mid ∨ n ∈ tableMarks s mid aged ∨
      n ∈ tableMarks s aged t.table.slots) ∨ n ∈ s.paint.dirty

theorem mem_departureLines {s : State} {n : Nat} : n ∈ departureLines s ↔ n + 1 < s.lines ∧ n ≠ 1 := by
  simp only [departureLines, tableLines, List.mem_filter, List.mem_range, bne_iff_ne]
  omega

theorem timeStages_sameBut (p : OriginPassage) {s : State} (hinv : TableInv s) :
    SameBut [.time, .slots, .order, .window, .counts, .dirty, .requests] s (timeStages p s) := by
  obtain ⟨hsame, -⟩ := agedTable_facts p hinv
  have hrepaint (u : State) : SameBut [.dirty, .requests] u (repaintRequests u) := by
    intro q hq
    cases q <;> simp_all [Part.same, repaintRequests]
  have hsweep (left : Bool) (u : State) : SameBut [.counts, .window, .slots, .order, .dirty] u (sweepAtZero left u) := by
    rw [sweepAtZero_eq]
    split
    · exact sweep_sameBut u
    · exact .refl _ u
  rw [timeStages_eq]
  refine ((hsame.trans (hsweep _ _)).trans (hrepaint _)).mono fun q hq => ?_
  simp only [List.mem_append, List.mem_cons, List.not_mem_nil, or_false] at hq ⊢
  tauto

theorem timeStages_time (p : OriginPassage) {s : State} (hinv : TableInv s) : (timeStages p s).time =
    { s.time with rollHold := heldAfter p s.time.rollHold, now := nowAfter p s } := by
  obtain ⟨-, -, -, -, htime, -⟩ := agedTable_facts p hinv
  rw [timeStages_eq, sweepAtZero_eq, ← htime]
  split <;> simp [repaintRequests]

/-- The marks of a sweep (R24, R59). -/
theorem sweep_dirty {s : State} (hord : s.table.order = runningOrder s.settings.filter s.table.slots) (n : Nat) :
    n ∈ (sweep s).paint.dirty ↔ n ∈ tableMarks s s.table.slots (sweptSlots s.table.slots) ∨ n ∈ s.paint.dirty := by
  have hmarks (u : State) (l : List (Option Record)) (hg : u.geometry = s.geometry) (hf : u.settings = s.settings)
      (hsl : u.table.slots = s.table.slots) (ho : u.table.order = s.table.order) :
      changeMarks l u = tableMarks s s.table.slots l := by
    unfold changeMarks tableMarks; rw [hg, hf, hsl, ho, hord]
  unfold sweep
  dsimp only
  rw [retable_paint, mem_setInsertAll, hmarks _ _ (by simp) (by simp) (by simp) (by simp), keepLive_eq]
  simp

theorem repaintRequests_table (s : State) : (repaintRequests s).table = s.table := by simp [repaintRequests]
theorem repaintRequests_dir (s : State) : (repaintRequests s).dir = s.dir := by simp [repaintRequests]
theorem repaintRequests_clock (s : State) : (repaintRequests s).paint.clockRequest = true := by simp [repaintRequests]

theorem mem_repaintRequests_dirty {s : State} {n : Nat} :
    n ∈ (repaintRequests s).paint.dirty ↔ (n + 1 < s.lines ∧ n ≠ 1) ∨ n ∈ s.paint.dirty := by
  simp [repaintRequests, mem_departureLines]

section
variable {rolled : Bool} {s u : State} {mid aged : List (Option Record)}
  (hmid : SlotsRelate (fun r new => new = if rolled then rolledOver r else r) s.table.slots mid)
  (haged : SlotsRelate (AgedRecord s.settings u.time.now) mid aged) (hinv : TableInv u) (hset : u.settings = s.settings)
  (hgeo : u.geometry = s.geometry) (hcounts : u.dir.counts = s.dir.counts) (hslots : u.table.slots = aged)
  (hdirty : ∀ n, n ∈ u.paint.dirty ↔ n ∈ tableMarks s s.table.slots mid ∨ n ∈ tableMarks s mid aged ∨ n ∈ s.paint.dirty)
include hmid haged hinv hset hgeo hcounts hslots hdirty

/-- Stage 4 with no sweep before it. -/
theorem stagesLeave_unswept {left : Bool} (hleft : left = true ↔ SomeLeft s.table.slots aged)
    (hwindow : u.table.window = (touchIf left s).table.window)
    (hlen : SomeLeft s.table.slots aged → s.settings.sweepLength ≠ 0) : StagesLeave rolled s (repaintRequests u) := by
  obtain ⟨-, -, -, hord, -⟩ := hinv
  have hlines : u.lines = s.lines := by unfold State.lines; rw [hgeo]
  refine ⟨mid, aged, hmid, by simpa [repaintRequests] using haged, ?_⟩
  rw [repaintRequests_table, repaintRequests_dir]
  refine ⟨fun hn => ⟨hslots, ?_, hcounts⟩, fun hs hl => ⟨hslots, ?_, hcounts⟩, fun hs h0 => absurd h0 (hlen hs), ?_,
    repaintRequests_clock _, fun n => ?_⟩
  · rw [hwindow, show left = false by rw [← Bool.not_eq_true, hleft]; exact hn]
    rfl
  · rw [hwindow, hleft.2 hs]
    exact touchWindow_window hl
  · rw [hord, hset]
  · rw [mem_repaintRequests_dirty, hdirty, hlines, hslots, tableMarks_self]
    simp only [List.not_mem_nil, or_false]
    tauto

/-- Stage 4 after the sweep of a window length of 0. -/
theorem stagesLeave_swept (hleft : SomeLeft s.table.slots aged) (hlen : s.settings.sweepLength = 0) :
    StagesLeave rolled s (repaintRequests (sweep u)) := by
  have hcs := sweep_counts hinv
  obtain ⟨-, -, -, hord, -⟩ := hinv
  have hmarks (a b : List (Option Record)) : tableMarks u a b = tableMarks s a b := by
    unfold tableMarks; rw [hset, hgeo]
  have hlines : (sweep u).lines = s.lines := by unfold State.lines; rw [sweep_geometry, hgeo]
  refine ⟨mid, aged, hmid, by simpa [repaintRequests] using haged, ?_⟩
  rw [repaintRequests_table, repaintRequests_dir, sweep_table, keepLive_eq, hslots, hset]
  refine ⟨fun hn => absurd hleft hn, fun _ hl => absurd hlen (by omega), fun _ _ => ⟨rfl, rfl, fun q hq => ?_⟩, rfl,
    repaintRequests_clock _, fun n => ?_⟩
  · have := hcs q hq
    rwa [hslots, hcounts, ← repaintRequests_dir] at this
  · rw [mem_repaintRequests_dirty, sweep_dirty hord, hdirty, hlines, hmarks, hslots]
    tauto

end

/-- The four stages and the sweep at length 0 (R39, R40, R42, R44, R55 to R57). -/
theorem timeStages_leave (p : OriginPassage) {s : State} (hinv : TableInv s) :
    StagesLeave (rollsOver p s.time.rollHold) s (timeStages p s) := by
  obtain ⟨hsame, hslots, hwindow, hdirty, htime, hleft⟩ := agedTable_facts p hinv
  have hset : (agedTable p s).settings = s.settings := hsame .settings (by simp)
  have hgeo : (agedTable p s).geometry = s.geometry := hsame .geometry (by simp)
  have hcounts : (agedTable p s).dir.counts = s.dir.counts := hsame .counts (by simp)
  have hinv' : TableInv (agedTable p s) := ageTable_tableInv ((recomputeNow_beside _).tableInv (passOrigin_tableInv p hinv))
  have haged : SlotsRelate (AgedRecord s.settings (agedTable p s).time.now)
      (rolledSlots (rollsOver p s.time.rollHold) s.table.slots) (agedSlots p s) := by
    rw [htime]
    exact slotsRelate_mapRecords (ageRecord_aged _ _) _
  rw [timeStages_eq, hleft, sweepAtZero_eq, hset]
  split
  · next h =>
    exact stagesLeave_swept (slotsRelate_rolled _ _) haged hinv' hset hgeo hcounts hslots hdirty ((stagesLeft_iff p s).1 h.1) h.2
  · next h =>
    exact stagesLeave_unswept (slotsRelate_rolled _ _) haged hinv' hset hgeo hcounts hslots hdirty (stagesLeft_iff p s)
      hwindow fun hs h0 => h ⟨(stagesLeft_iff p s).2 hs, h0⟩

end Sys2Proof.Machine

/-! O27, O28. The minute event, and the station time of an overhead record. -/

namespace Sys2Proof.Machine

/-- The frame of an event that marks lines and raises requests. -/
theorem framedBy_raised {l m : List Part} {s u : State} (h : SameBut m s u) (hm : ∀ p ∈ m, p ∈ l ++ arbiterParts)
    (hd : .dirOp ∉ m ∧ .eraseMarks ∉ m) : FramedBy l s (settle u) := by
  obtain ⟨hsame, hdir⟩ := framedBy_settle h (h _ hd.1) (h _ hd.2)
  refine ⟨hsame.mono fun p hp => ?_, hdir⟩
  exact (List.mem_append.1 hp).elim (hm p) fun hx => List.mem_append_right _ hx

/-- The lines the stages of an event mark: the departure lines, those of each change of the table, and those of a repaint. -/
def stageLines (repainted : Bool) (s : State) (mid aged final : List (Option Record)) : List Nat :=
  departureLines s ++ (tableMarks s s.table.slots mid ++ (tableMarks s mid aged ++ (tableMarks s aged final ++
    if repainted then tableLines s else [])))

theorem mem_stageLines {repainted : Bool} {s : State} {mid aged final : List (Option Record)} {n : Nat} :
    n ∈ stageLines repainted s mid aged final ↔ (n + 1 < s.lines ∧ n ≠ 1) ∨ n ∈ tableMarks s s.table.slots mid ∨
      n ∈ tableMarks s mid aged ∨ n ∈ tableMarks s aged final ∨ (repainted = true ∧ n + 1 < s.lines) := by
  have hrange : n ∈ (if repainted then tableLines s else []) ↔ repainted = true ∧ n + 1 < s.lines := by
    have hlt : n < s.lines - 1 ↔ n + 1 < s.lines := by omega
    cases repainted <;> simp [tableLines, hlt]
  unfold stageLines
  simp only [List.mem_append, hrange, mem_departureLines]

/-- Stages taken between two steps that may repaint the board, taken whole. -/
theorem stagesTaken_settle {rolled a b : Bool} {s v u w : State} (hbefore : Repaints a s v) (hstages : StagesLeave rolled v u)
    (hsame : SameBut [.time, .slots, .order, .window, .counts, .dirty, .requests] v u) (hafter : Repaints b u w)
    (htime : w.time = u.time) : StagesTaken rolled (a || b) s (settle w) := by
  obtain ⟨hsv, hdv, hjv, -⟩ := hbefore
  obtain ⟨huw, hdw, hjw, hcw⟩ := hafter
  have hslots : v.table.slots = s.table.slots := hsv .slots (by simp)
  have hwindow : v.table.window = s.table.window := hsv .window (by simp)
  have hset : v.settings = s.settings := hsv .settings (by simp)
  have helapsed : v.elapsed = s.elapsed := hsv .elapsed (by simp)
  have hgeo : v.geometry = s.geometry := hsv .geometry (by simp)
  have hcounts : v.dir.counts = s.dir.counts := hsv .counts (by simp)
  have hws : w.table.slots = u.table.slots := huw .slots (by simp)
  have hwo : w.table.order = u.table.order := huw .order (by simp)
  have hww : w.table.window = u.table.window := huw .window (by simp)
  have hwc : w.dir.counts = u.dir.counts := huw .counts (by simp)
  have hug : u.geometry = v.geometry := hsame .geometry (by simp)
  obtain ⟨huj, -⟩ : Part.arbiter.same v u := hsame .arbiter (by simp)
  have hmarks (x y : List (Option Record)) : tableMarks v x y = tableMarks s x y := by
    unfold tableMarks; rw [hgeo, hset]
  have hafterLeaving : windowAfterLeaving v = windowAfterLeaving s := by
    unfold windowAfterLeaving; rw [hset, helapsed, hwindow]
  have hlines : v.lines = s.lines := by unfold State.lines; rw [hgeo]
  have hulines : u.lines = s.lines := by unfold State.lines; rw [hug, hgeo]
  have hjob : w.paint.job = none → s.paint.job = none := fun hn => hjv (huj ▸ hjw hn)
  obtain ⟨mid, aged, hmid, haged, hnone, hsome, hzero, horder, hclock, hdirty⟩ := hstages
  rw [hslots] at hmid hnone hsome hzero hdirty
  rw [hset] at haged hsome hzero horder
  rw [hwindow] at hnone
  rw [hcounts] at hnone hsome
  rw [hafterLeaving] at hsome
  refine ⟨mid, aged, hmid, ?_, ?_⟩
  · rw [settle_time, htime]
    exact haged
  rw [settle_table, settle_dir_counts, hws, hwo, hww, hwc]
  refine ⟨hnone, hsome, fun hs h0 => ?_, horder, settle_clockRaised hjob (hcw hclock),
    stageLines (a || b) s mid aged u.table.slots, settle_marked hjob fun n => ?_, fun n => mem_stageLines⟩
  · obtain ⟨h1, h2, h3⟩ := hzero hs h0
    refine ⟨h1, h2, fun p hp => ?_⟩
    rw [settle_dir_counts, hwc, ← hcounts]
    exact h3 p hp
  · rw [hdw, hdirty, hdv, hulines, hlines, hmarks, hmarks, hmarks, mem_stageLines, Bool.or_eq_true, or_and_right]
    simp only [or_assoc, or_comm, or_left_comm]

/-! ### The minute event -/

theorem serviceMinute_is {origin minute : Nat} (h : origin ≤ 359) :
    ((serviceMinute origin minute : Nat) : Int) = ((minute : Int) - origin) % 1440 := by
  unfold serviceMinute
  omega

/-- "Now" after the stages is R37's. -/
theorem nowAfter_is (p : OriginPassage) {s : State} (h : s.settings.origin ≤ 359) :
    NowIs s.settings.origin s.time.minute (heldAfter p s.time.rollHold) (nowAfter p s) := by
  unfold nowAfter
  refine ⟨fun hh => by rw [hh]; rfl, fun hh => ?_⟩
  rw [hh]
  exact serviceMinute_is h

/-- Settles O27. -/
theorem minuteEventStages : Obligations.MinuteEventStages := by
  intro s hrun hinv hset
  obtain ⟨-, horigin, -⟩ := hset
  refine ⟨_, congrArg Host.Outcome.next (event_of_running hrun advanceMinute), fun hv => ?_, fun hv => ?_⟩
  · rw [show advanceMinute s = s by simp [advanceMinute, hv]]
    exact framedAtRest_settle (.refl _ s) (by simp)
  have hadv : advanceMinute s = timeStages (if (s.time.minute + 1) % 1440 = s.settings.origin then .forward else .no)
      (s.withTime { s.time with minute := (s.time.minute + 1) % 1440, second := 0, milli := 0 }) := by
    simp only [advanceMinute, hv, if_true]
    rfl
  generalize hp : (if (s.time.minute + 1) % 1440 = s.settings.origin then OriginPassage.forward else .no) = p at hadv
  generalize hw : s.withTime { s.time with minute := (s.time.minute + 1) % 1440, second := 0, milli := 0 } = v at hadv
  have hrep : Repaints false s v := hw ▸ repaints_withTime _ s
  have hvt : v.time = { s.time with minute := (s.time.minute + 1) % 1440, second := 0, milli := 0 } := by rw [← hw]; rfl
  have hvs : v.settings = s.settings := by rw [← hw]; rfl
  have hinv' : TableInv v := hw ▸ (withTime_beside s _).tableInv hinv
  have hstages := stagesTaken_settle hrep (timeStages_leave p hinv') (timeStages_sameBut p hinv')
    (repaints_of_sameBut (.refl _ _)) rfl
  have htime := timeStages_time p hinv'
  have hsame := (hw ▸ withTime_sameBut _ s : SameBut [.time] s v).trans (timeStages_sameBut p hinv')
  rw [hadv, settle_time, htime]
  rw [hvt] at hstages ⊢
  refine ⟨⟨rfl, rfl, rfl, hv, rfl, rfl, rfl⟩, ?_, fun ho => ?_, fun ho => ?_,
    framedBy_raised hsame (by simp [arbiterParts]) (by simp)⟩
  · have := nowAfter_is p (s := v) (by rw [hvs]; exact horigin)
    rw [hvs, hvt] at this
    exact this
  · rw [if_pos ho] at hp
    subst hp
    exact ⟨rfl, hstages⟩
  · rw [if_neg ho] at hp
    subst hp
    exact ⟨rfl, hstages⟩

/-! ### The station time -/

/-- The record's octets are judged as R169 says. -/
theorem recordValid_of_good {o1 o2 o3 o4 o5 : Octet} (h : RecordGood o1 o2 o3 o4 o5) :
    recordValid [o1, o2, o3, o4, o5] = true := by
  obtain ⟨hstop, hsum⟩ := h
  simp only [recordValid, Bool.and_eq_true, List.all_eq_true, Bool.not_eq_true', decide_eq_true_eq]
  refine ⟨hstop, ?_⟩
  simp only [List.map_cons, List.map_nil, List.foldl_cons, List.foldl_nil]
  apply BitVec.eq_of_toNat_eq
  simp only [BitVec.toNat_add, BitVec.ofNat_eq_ofNat, BitVec.toNat_ofNat]
  omega

/-- The state in which the station time of a good record arrives: the record held, the feed fresh (R49, R169). -/
def refreshedPart (o1 o2 o3 o4 : Octet) (s : State) : State :=
  refreshFeed (s.withFeed { s.feed with
    lastRecord := some { minute := number2 o1.data o2.data, second := o3.data.toNat, state := o4.data } })

theorem judgeRecord_good {o1 o2 o3 o4 o5 : Octet} {s : State} (h : RecordGood o1 o2 o3 o4 o5) : judgeRecord o1 o2 o3 o4 o5 s =
    debounceStation o4.data (takeStationTime (number2 o1.data o2.data) o3.data.toNat (refreshedPart o1 o2 o3 o4 s)) := by
  unfold judgeRecord
  rw [if_pos (recordValid_of_good h)]
  rfl

/-- The feed made fresh, with the board state that follows. -/
def Refreshed (s u : State) : Prop :=
  ∃ a, Repaints a s u ∧ (a = true ↔ u.board ≠ s.board) ∧
    (s.board = deriveBoard s.feed.station s.time.freshness s.time.valid →
      u.board = deriveBoard s.feed.station .fresh s.time.valid) ∧
    u.time = { s.time with freshness := .fresh, freshTimer := 0 } ∧ u.feed.station = s.feed.station

theorem refreshedPart_refreshed (o1 o2 o3 o4 : Octet) (s : State) : Refreshed s (refreshedPart o1 o2 o3 o4 s) := by
  unfold refreshedPart refreshFeed Refreshed
  dsimp only
  cases hf : s.time.freshness with
  | fresh =>
    simp only [State.withFeed_time, hf]
    exact ⟨false, (repaints_withFeed _ s).trans (repaints_withTime _ _), by simp, fun h => h, rfl, rfl⟩
  | lapsed =>
    simp only [State.withFeed_time, hf]
    obtain ⟨a, ha, hb, hder, ht, hfeed⟩ := selectBoard_repaints
      ((s.withFeed { s.feed with
        lastRecord := some { minute := number2 o1.data o2.data, second := o3.data.toNat, state := o4.data } }).withTime
          { s.time with freshness := .fresh, freshTimer := 0 })
    exact ⟨a, ((repaints_withFeed _ s).trans (repaints_withTime _ _)).trans ha, hb, fun _ => hder, ht, by rw [hfeed]; rfl⟩

theorem debounceStation_repaints (code : Byte) (s : State) :
    ∃ a, Repaints a s (debounceStation code s) ∧ (a = true ↔ (debounceStation code s).board ≠ s.board) ∧
      (debounceStation code s).time = s.time ∧ ∃ station, (s.board = deriveBoard s.feed.station s.time.freshness s.time.valid →
        (debounceStation code s).board = deriveBoard station s.time.freshness s.time.valid) := by
  have hkeep (v : FeedReceiver) : ∃ a, Repaints a s (s.withFeed v) ∧ (a = true ↔ (s.withFeed v).board ≠ s.board) ∧
      (s.withFeed v).time = s.time ∧ ∃ station, (s.board = deriveBoard s.feed.station s.time.freshness s.time.valid →
        (s.withFeed v).board = deriveBoard station s.time.freshness s.time.valid) :=
    ⟨false, repaints_withFeed v s, by simp, rfl, s.feed.station, fun h => h⟩
  unfold debounceStation
  split
  · exact hkeep _
  · next st _ =>
    split
    · split
      · exact hkeep _
      · obtain ⟨a, ha, hb, hder, ht, -⟩ := selectBoard_repaints (s.withFeed { s.feed with candidate := some st, station := st })
        exact ⟨a, (repaints_withFeed _ s).trans ha, hb, ht, st, fun _ => hder⟩
    · exact hkeep _

/-- The board states on the way of a record that makes the feed fresh and the time valid: once left, the first does not come
back. -/
theorem board_left_for_good (station station' : StationState) (freshness : Freshness) (valid : Bool) :
    deriveBoard station .fresh valid ≠ deriveBoard station freshness valid ∨
        deriveBoard station .fresh true ≠ deriveBoard station .fresh valid ∨
        deriveBoard station' .fresh true ≠ deriveBoard station .fresh true ↔
      deriveBoard station' .fresh true ≠ deriveBoard station freshness valid := by
  have hfinal := deriveBoard_fresh station' true
  have hvalid := deriveBoard_valid station' .fresh
  have hsecond : deriveBoard station .fresh valid = deriveBoard station .fresh true ∨
      deriveBoard station .fresh valid = .starting := by
    cases valid with
    | true => exact .inl rfl
    | false => exact deriveBoard_invalid station .fresh
  have hfirst : deriveBoard station freshness valid = deriveBoard station .fresh valid ∨
      deriveBoard station freshness valid = .unavailable := by
    cases freshness with
    | fresh => exact .inl rfl
    | lapsed => exact deriveBoard_lapsed station valid
  rcases hfirst with h1 | h1
  · rcases hsecond with h2 | h2
    · rw [h1, h2]; simp
    · rw [h1, h2]
      refine iff_of_true (.inr ?_) hvalid
      by_contra hn
      simp only [ne_eq, not_or, not_not] at hn
      exact hvalid (hn.2.trans hn.1)
  · rw [h1]
    exact iff_of_true (.inl (deriveBoard_fresh _ _)) hfinal

theorem Repaints.tableInv {a : Bool} {s t : State} (h : Repaints a s t) (hinv : TableInv s) : TableInv t := by
  obtain ⟨hsame, -⟩ := h
  have hset : t.settings = s.settings := hsame .settings (by simp)
  exact hinv.congr (hsame .slots (by simp)) (hsame .order (by simp)) (congrArg Settings.filter hset) (hsame .counts (by simp))

/-- A record whose station time brings no event: only the receiver, the time and the board state follow it. -/
theorem debounced_framed {a : Bool} {s u : State} (h : Repaints a s u) (code : Byte) :
    (settle (debounceStation code u)).time = u.time ∧
      FramedBy [.feed, .time, .board, .callingScroll, .bannerScroll] s (settle (debounceStation code u)) := by
  obtain ⟨b, hb, -, htime, -⟩ := debounceStation_repaints code u
  obtain ⟨hsame, -⟩ := h.trans hb
  exact ⟨by rw [settle_time, htime], framedBy_raised hsame (by simp [arbiterParts]) (by simp)⟩

/-- A record whose station time brings an event: the stages, then the de-bounce of its station state. -/
theorem debounced_stages {a : Bool} {s v : State} (p : OriginPassage) (code : Byte) (h : Repaints a s v) (hinv : TableInv s) :
    ∃ b station, StagesTaken (rollsOver p v.time.rollHold) (a || b) s (settle (debounceStation code (timeStages p v))) ∧
      (settle (debounceStation code (timeStages p v))).time =
        { v.time with rollHold := heldAfter p v.time.rollHold, now := nowAfter p v } ∧
      (b = true ↔ (settle (debounceStation code (timeStages p v))).board ≠ v.board) ∧
      (v.board = deriveBoard v.feed.station v.time.freshness v.time.valid →
        (settle (debounceStation code (timeStages p v))).board = deriveBoard station v.time.freshness v.time.valid) := by
  have hinv' := h.tableInv hinv
  have hsame := timeStages_sameBut p hinv'
  have htime := timeStages_time p hinv'
  have hboard : (timeStages p v).board = v.board := hsame .board (by simp)
  have hfeed : (timeStages p v).feed = v.feed := hsame .feed (by simp)
  obtain ⟨b, hb, hchanged, hbt, station, hder⟩ := debounceStation_repaints code (timeStages p v)
  rw [hboard, hfeed, htime] at hder
  rw [hboard] at hchanged
  refine ⟨b, station, stagesTaken_settle h (timeStages_leave p hinv') hsame hb hbt, ?_, ?_, ?_⟩
  · rw [settle_time, hbt, htime]
  · rw [settle_board, hchanged]
  · rw [settle_board]
    exact hder

/-- An event with its stages repaints exactly when the board state it ends with is a new one. -/
theorem stepStagesTaken_of {rolled a b : Bool} {station' : StationState} {b1 b2 : BoardState} {s t : State}
    (hstages : StagesTaken rolled (a || b) s t) (ha : a = true ↔ b1 ≠ s.board ∨ b2 ≠ b1) (hb : b = true ↔ t.board ≠ b2)
    (h1 : s.board = deriveBoard s.feed.station s.time.freshness s.time.valid → b1 = deriveBoard s.feed.station .fresh s.time.valid)
    (h2 : s.board = deriveBoard s.feed.station s.time.freshness s.time.valid → b2 = deriveBoard s.feed.station .fresh true)
    (h3 : b2 = deriveBoard s.feed.station .fresh true → t.board = deriveBoard station' .fresh true) :
    StepStagesTaken rolled s t := by
  refine ⟨_, hstages, fun his => ?_⟩
  have h0 := boardIs_iff.1 his
  have hchain := board_left_for_good s.feed.station station' s.time.freshness s.time.valid
  rw [← h3 (h2 h0), ← h2 h0, ← h1 h0, ← h0] at hchain
  rw [Bool.or_eq_true, ha, hb, or_assoc]
  exact hchain

/-! ### The cases of a station time -/

section
variable {minute second : Nat} {s : State}

theorem takeStationTime_unusable (h : 1440 ≤ minute ∨ 60 ≤ second) : takeStationTime minute second s = s :=
  if_neg (by omega)

theorem takeStationTime_first (hm : minute < 1440) (hs : second < 60) (hv : s.time.valid = false) :
    takeStationTime minute second s = timeStages .no (selectBoard (setBoardTime minute second s)) := by
  simp only [takeStationTime, hm, hs, hv, and_self, if_true, Bool.false_eq_true, if_false]

/-- How far a station time is ahead of board time, in seconds of the day (R35). -/
def stationDistance (minute second : Nat) (s : State) : Nat :=
  (secondsOfDay minute second + 86400 - secondsOfDay s.time.minute s.time.second) % 86400

theorem takeStationTime_valid (hm : minute < 1440) (hs : second < 60) (hv : s.time.valid = true) :
    takeStationTime minute second s =
      if stationDistance minute second s ≤ 1 ∨ stationDistance minute second s = 86399 then
        s.withTime { s.time with inconsistent := 0 }
      else if s.time.inconsistent + 1 < 3 then s.withTime { s.time with inconsistent := s.time.inconsistent + 1 }
      else timeStages (stepPassage s.settings.origin (stationDistance minute second s)
        (secondsOfDay s.time.minute s.time.second) (secondsOfDay minute second)) (setBoardTime minute second s) := by
  simp only [takeStationTime, hm, hs, hv, and_self, if_true]
  rfl

theorem stationDistance_is (hm : minute < 1440) (hs : second < 60) (hm' : s.time.minute < 1440) (hs' : s.time.second < 60) :
    (stationDistance minute second s : Int)
      = ((60 * minute + second : Int) - (60 * s.time.minute + s.time.second)) % 86400 := by
  unfold stationDistance secondsOfDay
  omega

theorem serviceSeconds_is {origin : Nat} (h : origin ≤ 359) (minute second : Nat) :
    (serviceSeconds origin (secondsOfDay minute second) : Int) = ((60 * minute + second : Int) - 60 * origin) % 86400 := by
  unfold serviceSeconds secondsOfDay
  omega

end

/-- The time a station time sets, fresh from the feed (R34, R35, R49). -/
def steppedTime (minute second : Nat) (t : Timekeeper) : Timekeeper :=
  { t with minute := minute, second := second, milli := 0, inconsistent := 0, valid := true, freshness := .fresh, freshTimer := 0 }

/-- A station time taken in an event of its stages: the time it leaves, "now", and what the stages leave (R34 to R42). -/
def StationTimeSet (p : OriginPassage) (minute second : Nat) (s t : State) : Prop :=
  t.time = { steppedTime minute second s.time with rollHold := heldAfter p s.time.rollHold, now := t.time.now } ∧
    NowIs s.settings.origin minute (heldAfter p s.time.rollHold) t.time.now ∧
    StepStagesTaken (rollsOver p s.time.rollHold) s t

section
variable {s u : State} (h : Refreshed s u) (hinv : TableInv s) (horigin : s.settings.origin ≤ 359) (minute second : Nat)
  (code : Byte)
include h hinv horigin

/-- The station time set by a step event, before which the board state stands. -/
theorem stepEvent_set (p : OriginPassage) (hv : s.time.valid = true) :
    StationTimeSet p minute second s (settle (debounceStation code (timeStages p (setBoardTime minute second u)))) := by
  obtain ⟨a, ha, hchanged, hder, htime, hstation⟩ := h
  have hvt : (setBoardTime minute second u).time = steppedTime minute second s.time := by
    show ({ u.time with minute := minute, second := second, milli := 0, inconsistent := 0, valid := true } : Timekeeper) = _
    rw [htime]
    rfl
  obtain ⟨b, station, hstages, ht, hb, hder'⟩ :=
    debounced_stages p code (ha.trans (repaints_withTime _ u) : Repaints (a || false) s (setBoardTime minute second u)) hinv
  have hset : (setBoardTime minute second u).settings = s.settings := ha.1 .settings (by simp)
  have hnow := nowAfter_is p (s := setBoardTime minute second u) (by rw [hset]; exact horigin)
  rw [hset, hvt] at hnow
  rw [Bool.or_false, hvt] at hstages
  rw [hvt] at ht hder'
  refine ⟨by rw [ht]; rfl, by rw [ht]; exact hnow, stepStagesTaken_of hstages (station' := station) (b1 := u.board) (b2 := u.board) ?_ hb hder ?_ ?_⟩
  · simpa using hchanged
  · rw [hv] at hder ⊢
    exact hder
  · intro h2
    refine hder' (h2.trans ?_)
    show _ = deriveBoard u.feed.station .fresh true
    rw [hstation]

/-- The first station time, taken at once: the board state follows the time that is now valid. -/
theorem firstTime_set :
    StationTimeSet .no minute second s
      (settle (debounceStation code (timeStages .no (selectBoard (setBoardTime minute second u))))) := by
  obtain ⟨a, ha, hchanged, hder, htime, hstation⟩ := h
  have hut : (setBoardTime minute second u).time = steppedTime minute second s.time := by
    show ({ u.time with minute := minute, second := second, milli := 0, inconsistent := 0, valid := true } : Timekeeper) = _
    rw [htime]
    rfl
  obtain ⟨a', ha', hchanged', hder', htime', hfeed'⟩ := selectBoard_repaints (setBoardTime minute second u)
  have hrep := (ha.trans (repaints_withTime _ u) : Repaints (a || false) s (setBoardTime minute second u)).trans ha'
  rw [hut] at htime' hder'
  have hfeed : (selectBoard (setBoardTime minute second u)).feed.station = s.feed.station :=
    (congrArg FeedReceiver.station hfeed').trans hstation
  have hboard : (selectBoard (setBoardTime minute second u)).board = deriveBoard s.feed.station .fresh true :=
    hder'.trans (by rw [← hstation]; rfl)
  generalize selectBoard (setBoardTime minute second u) = v at *
  obtain ⟨b, station, hstages, ht, hb, hder''⟩ := debounced_stages .no code hrep hinv
  have hset : v.settings = s.settings := hrep.1 .settings (by simp)
  have hnow := nowAfter_is .no (s := v) (by rw [hset]; exact horigin)
  rw [hset, htime'] at hnow
  rw [Bool.or_false, htime'] at hstages
  rw [htime'] at ht hder''
  refine ⟨by rw [ht]; rfl, by rw [ht]; exact hnow, stepStagesTaken_of hstages (station' := station) (b1 := u.board) (b2 := v.board) ?_ hb hder
    (fun _ => hboard) fun h2 => ?_⟩
  · rw [Bool.or_eq_true, hchanged, hchanged']
    rfl
  · refine hder'' (h2.trans ?_)
    show _ = deriveBoard v.feed.station .fresh true
    rw [hfeed]

end

/-- Settles O28. -/
theorem stationTimeTaken : Obligations.StationTimeTaken := by
  intro o1 o2 o3 o4 o5 s minute second hl hinv hset hm' hs' hgood hminute hsecond
  obtain ⟨-, horigin, -⟩ := hset
  have hnum : number2 o1.data o2.data = minute := hminute.symm
  refine ⟨_, congrArg Host.Outcome.next ((feedEvent_of_listening hl _).trans (congrArg settle (judgeRecord_good hgood))), ?_⟩
  rw [hnum, ← hsecond]
  have href := refreshedPart_refreshed o1 o2 o3 o4 s
  generalize refreshedPart o1 o2 o3 o4 s = u at *
  obtain ⟨a, ha, -, -, htime, -⟩ := id href
  have hset : u.settings = s.settings := ha.1 .settings (by simp)
  refine ⟨fun hbad => ?_, fun hm hs hv => ?_, fun distance hm hs hv hd => ?_⟩
  · rw [takeStationTime_unusable hbad]
    obtain ⟨ht, hframe⟩ := debounced_framed ha o4.data
    exact ⟨ht.trans htime, hframe⟩
  · rw [takeStationTime_first hm hs (by rw [htime]; exact hv)]
    obtain ⟨ht, hnow, hstages⟩ := firstTime_set href hinv horigin minute second o4.data
    exact ⟨ht, hnow, hstages⟩
  have hdist : (stationDistance minute second u : Int) = distance := by
    rw [hd, stationDistance_is hm hs (by rw [htime]; exact hm') (by rw [htime]; exact hs'), htime]
  rw [takeStationTime_valid hm hs (by rw [htime]; exact hv)]
  refine ⟨fun hnear => ?_, fun h1 h2 hcount => ?_, fun h1 h2 hcount before after hbefore hafter => ?_⟩
  · rw [if_pos (by omega)]
    obtain ⟨ht, hframe⟩ := debounced_framed (ha.trans (repaints_withTime { u.time with inconsistent := 0 } u)) o4.data
    exact ⟨ht.trans (by rw [State.withTime_time, htime]), hframe⟩
  · have hthree : u.time.inconsistent + 1 < 3 := by rw [htime]; exact Nat.succ_lt_succ hcount
    rw [if_neg (by omega), if_pos hthree]
    obtain ⟨ht, hframe⟩ := debounced_framed
      (ha.trans (repaints_withTime { u.time with inconsistent := u.time.inconsistent + 1 } u)) o4.data
    exact ⟨ht.trans (by rw [State.withTime_time, htime]), hframe⟩
  · have hthree : ¬ u.time.inconsistent + 1 < 3 := by rw [htime]; exact Nat.not_lt.2 (Nat.succ_le_succ hcount)
    rw [if_neg (by omega), if_neg hthree]
    have hb : (serviceSeconds u.settings.origin (secondsOfDay u.time.minute u.time.second) : Int) = before := by
      rw [hset, serviceSeconds_is horigin, htime, hbefore]
    have ha : (serviceSeconds u.settings.origin (secondsOfDay minute second) : Int) = after := by
      rw [hset, serviceSeconds_is horigin, hafter]
    obtain ⟨ht, hnow, hstages⟩ := stepEvent_set href hinv horigin minute second o4.data
      (stepPassage u.settings.origin (stationDistance minute second u) (secondsOfDay u.time.minute u.time.second)
        (secondsOfDay minute second)) hv
    generalize hp : stepPassage u.settings.origin (stationDistance minute second u) (secondsOfDay u.time.minute u.time.second)
      (secondsOfDay minute second) = p at *
    have hheld := congrArg Timekeeper.rollHold ht
    refine ⟨?_, hheld ▸ hnow, fun h3 h4 => ?_, fun h3 h4 => ?_, fun h3 h4 => ?_, fun h3 h4 => ?_⟩
    · rw [hheld]
      exact ht.trans (by simp only [steppedTime, hv])
    all_goals
      unfold stepPassage at hp
    · rw [if_pos (by omega), if_pos (by omega)] at hp
      subst hp
      exact ⟨hheld, hstages⟩
    · rw [if_neg (by omega), if_pos (by omega)] at hp
      subst hp
      exact ⟨hheld, hstages⟩
    · rw [if_pos (by omega), if_neg (by omega)] at hp
      subst hp
      exact ⟨hheld, hstages⟩
    · rw [if_neg (by omega), if_neg (by omega)] at hp
      subst hp
      exact ⟨hheld, hstages⟩

end Sys2Proof.Machine

/-! O58. RESTART. -/

namespace Sys2Proof.Machine

/-! ### The part under RESTART, with its board state derived anew -/

theorem setInsertAll_range (n : Nat) : setInsertAll (List.range n) [] = List.range n :=
  sorted_ext (setInsertAll_sorted .nil) List.pairwise_lt_range fun a => by simp

/-- The Paint Engine once RESTART has repainted the board: nothing in hand, and the lines of TABLE and the clock requested (R146,
R155, R158). -/
def repaintedReset (lines : Nat) : Paint :=
  { Paint.reset lines with dirty := List.range (lines - 1), clockRequest := true }

/-- What RESTART leaves before the arbiter's decision. -/
theorem acceptRestart_whole (s : State) : acceptRestart s =
    { restartedPart s with
      board := deriveBoard s.feed.station (restartedTime s.time).freshness s.time.valid
      paint := repaintedReset s.lines } := by
  have hvalid : (restartedTime s.time).valid = s.time.valid := by unfold restartedTime; dsimp only; split <;> rfl
  obtain ⟨job, heq, hslot⟩ := applyBoard_paint (deriveBoard s.feed.station (restartedTime s.time).freshness s.time.valid)
    (restartedPart s)
  have hjob : job = none := by simpa [restartedPart, Paint.reset] using hslot
  have hselect : selectFirst (restartedPart s) =
      applyBoard (deriveBoard s.feed.station (restartedTime s.time).freshness s.time.valid) (restartedPart s) := by
    unfold selectFirst
    rw [← hvalid]
    rfl
  rw [acceptRestart_eq, hselect, heq, hjob]
  have hlines : tableLines (restartedPart s) = List.range (s.lines - 1) := rfl
  have hbefore : bannerLine (restartedPart s) = none := rfl
  have hnow (b : BoardState) : bannerLine ((restartedPart s).withBoard b) = none := rfl
  rw [hlines, hbefore, hnow]
  have hpaint : boardPaint none none (List.range (s.lines - 1)) (restartedPart s).paint = repaintedReset s.lines := by
    show { Paint.reset s.lines with dirty := setInsertAll (List.range (s.lines - 1)) [], clockRequest := true } = _
    rw [setInsertAll_range]
    rfl
  rw [hpaint]
  rfl

/-! ### The directory under RESTART -/

/-- A table over place numbers stays in canonical form under a larger bound. -/
theorem cellsFrom_upper {α : Type} [DecidableEq α] {d : α} {hi hi' lo : Nat} {m : List (Nat × α)} (hle : hi ≤ hi')
    (h : cellsFrom d hi lo m = true) : cellsFrom d hi' lo m = true := by
  induction m generalizing lo with
  | nil => rfl
  | cons c r ih =>
    obtain ⟨a, v⟩ := c
    obtain ⟨hlo, hlt, hne, hrest⟩ := cellsFrom_cons.1 h
    exact cellsFrom_cons.2 ⟨hlo, hlt.trans_le hle, hne, ih hrest⟩

/-- The slot-state table with the slot of a cut write DEFECTIVE (R95). -/
def cutWriteStates (d : Directory) : List (Nat × SlotState) :=
  match writingSlot d.op with
  | some place => cellSet .blank d.slotStates place .defective
  | none => d.slotStates

theorem cutStates_eq (d : Directory) : cutStates d = match begunSector d.op with
    | some sector => cellFill .blank (128 * sector) 128 .defective (cutWriteStates d)
    | none => cutWriteStates d := rfl

theorem cutWriteStates_facts {d : Directory} (h : cellsFrom .blank 1024 0 d.slotStates = true) :
    (∃ hi, cellsFrom .blank hi 0 (cutWriteStates d) = true) ∧ ∀ p, cellGet .blank (cutWriteStates d) p =
      if writingSlot d.op = some p then .defective else slotState d p := by
  unfold cutWriteStates
  cases writingSlot d.op with
  | none => exact ⟨⟨1024, h⟩, fun p => by simp [slotState]⟩
  | some place =>
    refine ⟨⟨1024 + place + 1, cellSet_canonical (cellsFrom_upper (by omega) h) (by omega) (by omega)⟩, fun p => ?_⟩
    show cellGet .blank (cellSet .blank d.slotStates place .defective) p = _
    rw [cellGet_cellSet h]
    simp only [Option.some.injEq, eq_comm (a := place)]
    rfl

/-- What the slot-state table reads at once after RESTART (R95). -/
theorem cellGet_cutStates {d : Directory} (h : cellsFrom .blank 1024 0 d.slotStates = true) (p : Nat) :
    cellGet .blank (cutStates d) p =
      if writingSlot d.op = some p ∨ begunSector d.op = some (sectorOf p) then .defective else slotState d p := by
  obtain ⟨⟨hi, hcan⟩, hget⟩ := cutWriteStates_facts h
  rw [cutStates_eq]
  cases begunSector d.op with
  | none => simpa using hget p
  | some sector =>
    have hcan' : cellsFrom .blank (hi + 128 * sector + 128) 0 (cutWriteStates d) = true := cellsFrom_upper (by omega) hcan
    have hin : (128 * sector ≤ p ∧ p < 128 * sector + 128) ↔ sector = sectorOf p := by rw [eq_comm, sectorOf_eq_iff]
    show cellGet .blank (cellFill .blank (128 * sector) 128 .defective (cutWriteStates d)) p = _
    rw [cellGet_cellFill hcan' (by omega) (by omega), hget]
    simp only [hin, Option.some.injEq]
    by_cases hs : sector = sectorOf p <;> simp [hs]

theorem cutStorage_lockFlags (takesNew : Bool) (d : Directory) : (cutStorage takesNew d).lockFlags = d.lockFlags ∨
    ∃ l, d.op = .locking l ∧ (cutStorage takesNew d).lockFlags = l.target := by
  unfold cutStorage
  split
  · next l hl =>
    cases takesNew with
    | false => exact .inl rfl
    | true => exact .inr ⟨l, hl, rfl⟩
  · exact .inl rfl

/-! ### After the decision -/

/-- While no erase is in hand the suspend request does not stand after an event (R144). -/
theorem settle_suspendRequest {s : State} (h : s.dir.op = .scanning) : (settle s).paint.suspendRequest = false := by
  have hop : (settle s).dir.op = .scanning := by
    rw [settle_dir (by simp [h]) (by simp [h])]
    exact h
  obtain ⟨-, -, -, hwithdraw, -⟩ := settled_settle s
  by_contra hq
  have := hwithdraw (by simpa using hq)
  simp [withdrawCondition, hop, eraseBank] at this

/-- The dirty line set after an event of an idle arbiter is what the event left, less a line granted in it. -/
theorem settle_nowDirty {s : State} {lines : List Nat} (h : s.paint.dirty = lines) : NowDirty lines (settle s) := by
  subst h
  rcases settle_dirty s with hd | ⟨-, line, out, hjob, hd⟩
  · exact .inl fun n => by rw [hd]
  · exact .inr ⟨line, out, hjob, fun n => by rw [hd, List.mem_filter]; simp⟩

theorem restartedTime_is {minute : Nat} (t : Timekeeper) (h : t.minute = minute) :
    restartedTime t = { t with
      inconsistent := 0, rollHold := false, now := (restartedTime t).now, freshness := (restartedTime t).freshness
      freshTimer := (restartedTime t).freshTimer } ∧
    NowIs 180 minute false (restartedTime t).now ∧
    ((t.freshness = .fresh ∧ 600000 ≤ t.freshTimer) →
      (restartedTime t).freshness = .lapsed ∧ (restartedTime t).freshTimer = 600000) ∧
    (¬ (t.freshness = .fresh ∧ 600000 ≤ t.freshTimer) →
      (restartedTime t).freshness = t.freshness ∧ (restartedTime t).freshTimer = t.freshTimer) := by
  have hnow : NowIs 180 minute false (serviceMinute 180 t.minute) :=
    ⟨(fun hx => nomatch hx), fun _ => by rw [h]; exact serviceMinute_is (by omega)⟩
  unfold restartedTime
  dsimp only
  split
  · next hlapse => exact ⟨rfl, hnow, fun _ => ⟨rfl, rfl⟩, fun hn => absurd hlapse hn⟩
  · next hlapse => exact ⟨rfl, hnow, fun hn => absurd hn hlapse, fun _ => ⟨rfl, rfl⟩⟩

theorem restartedPart_sameBut (s : State) : SameBut (([.settings, .feed, .unpacker, .results, .time, .slots, .order, .window,
    .lockFlags, .slotStates, .counts, .hold, .banner, .callingScroll, .bannerScroll, .layouts, .frame, .freeIndex] : List Part) ++
      arbiterParts) s (restartedPart s) := by
  obtain ⟨hstorage, hmarks, hlocks⟩ := cutStorage_same (Config.lockCutTakesNew s.freeIndex) s.dir
  intro p hp
  cases p with
  | phase | elapsed | geometry | key | pending | board => rfl
  | storage => exact hstorage
  | locks => exact hlocks
  | _ => simp [arbiterParts] at hp

/-- What RESTART leaves (R189). -/
theorem acceptRestart_sameBut (s : State) : SameBut (([.settings, .feed, .unpacker, .results, .time, .board, .slots, .order,
    .window, .lockFlags, .slotStates, .counts, .hold, .banner, .callingScroll, .bannerScroll, .layouts, .frame, .freeIndex] :
      List Part) ++ arbiterParts) s (acceptRestart s) := by
  rw [acceptRestart_eq]
  exact ((restartedPart_sameBut s).trans (applyBoard_repaints _ _).1).mono (by decide)

/-- Settles O58. -/
theorem restartResetsButKeepsTime : Obligations.RestartResetsButKeepsTime := by
  intro s hl _
  have hwhole := acceptRestart_whole s
  have hop : (acceptRestart s).dir.op = .scanning := by rw [hwhole]; rfl
  have hdir : (settle (acceptRestart s)).dir = directoryRestart (Config.lockCutTakesNew s.freeIndex) s.dir := by
    rw [settle_dir (by simp [hop]) (by simp [hop]), hwhole]
    rfl
  have hpaint : (acceptRestart s).paint = repaintedReset s.lines := by rw [hwhole]
  have hquiet := settle_noneRaised (acceptRestart s)
  have hoff {b : Bool} (h : b = true → false = true) : b = false := by
    cases b with
    | false => rfl
    | true => exact absurd (h rfl) (by simp)
  obtain ⟨hstep, -, hcompose, hbstep, -⟩ := hquiet
  rw [hpaint] at hstep hcompose hbstep
  obtain ⟨hstorage, hmarks, hlocks⟩ := cutStorage_same (Config.lockCutTakesNew s.freeIndex) s.dir
  obtain ⟨ht, hnow, hlapse, hstay⟩ := restartedTime_is s.time rfl
  have htime : (settle (acceptRestart s)).time = restartedTime s.time := by rw [settle_time, hwhole]; rfl
  refine ⟨_, congrArg Host.Outcome.next (feedEvent_of_listening hl acceptRestart), ?_, ?_, ?_, ?_, ?_, ?_, ?_, ?_, ?_, ?_, ?_, ?_, ?_⟩
  · rw [settle_settings, hwhole]; rfl
  · rw [settle_table, hwhole]; rfl
  · rw [settle_unpacker, hwhole]; rfl
  · rw [settle_results, hwhole]; rfl
  · rw [settle_feed, hwhole]; rfl
  · rw [htime]
    exact ⟨ht, hnow, hlapse, hstay⟩
  · rw [htime, settle_board, hwhole, boardIs_iff]
  · refine ⟨?_, ?_, ?_, ?_, ?_, settle_nowDirty (by rw [hpaint]; rfl)⟩
    · rw [settle_paint_hold, hpaint]; rfl
    · rw [settle_paint_banner, hpaint]; rfl
    · rw [settle_paint_callingScroll, hpaint]; rfl
    · rw [settle_paint_bannerScroll, hpaint]; rfl
    · rw [settle_paint_layouts, hpaint]; rfl
  · refine ⟨hoff hstep, hoff hcompose, hoff hbstep, settle_suspendRequest hop, acceptRestart s, rfl, ?_⟩
    rw [hpaint]
    exact ⟨rfl, rfl, rfl, rfl, rfl, rfl, rfl⟩
  · rw [settle_frame, hwhole]
    exact ⟨rfl, rfl, rfl, rfl, rfl, rfl⟩
  · rw [hdir]
    exact ⟨rfl, rfl, hstorage, hmarks, hlocks, cutStorage_lockFlags _ s.dir⟩
  · intro hwf p _
    have hcan : cellsFrom .blank 1024 0 s.dir.slotStates = true := by
      unfold Directory.wf at hwf
      simp only [Bool.and_eq_true] at hwf
      exact hwf.1.2
    rw [hdir]
    exact cellGet_cutStates hcan p
  · refine (sameBut_settle (acceptRestart_sameBut s)).mono fun p hp => ?_
    exact (List.mem_append.1 hp).elim id fun hx => List.mem_append_right _ hx

end Sys2Proof.Machine

/-! O57. SET BOARD: the settings taken, and what each change sets off in the block that reads it. -/

namespace Sys2Proof.Machine

/-! ### The settings of a message -/

theorem clamped_is {lo hi old : Nat} (h : lo ≤ hi) (given : Option Nat) :
    Clamped lo hi given old ((given.map (clamp lo hi)).getD old) := by
  refine ⟨fun hn => by rw [hn]; rfl, fun n hn => ?_⟩
  rw [hn]
  show max lo (min n hi) = _
  split_ifs <;> omega

theorem outside_iff {lo hi : Nat} (h : lo ≤ hi) (given : Option Nat) : outside lo hi given = true ↔ GivenOutside lo hi given := by
  cases given with
  | none => simp [outside, GivenOutside]
  | some n =>
    have hn : GivenOutside lo hi (some n) ↔ n < lo ∨ hi < n := by simp [GivenOutside]
    rw [hn]
    show decide (max lo (min n hi) ≠ n) = true ↔ _
    rw [decide_eq_true_eq]
    omega

/-- The model's test of a clamped value is R187's. -/
theorem anyClamped_iff (f : BoardFields) : anyClamped f = true ↔ BoardClamped f := by
  unfold anyClamped BoardClamped
  simp only [Bool.or_eq_true]
  rw [outside_iff (by omega), outside_iff (by omega), outside_iff (by omega), outside_iff (by omega), outside_iff (by omega),
    outside_iff (by omega), outside_iff (by omega), outside_iff (by omega), outside_iff (by omega), outside_iff (by omega),
    outside_iff (by omega), outside_iff (by omega)]
  simp only [or_assoc]

/-- The settings of a message are R187's. -/
theorem newSettings_taken (f : BoardFields) (o : Settings) : SettingsTaken f o (newSettings f o) := by
  refine ⟨fun hn => by simp [newSettings, hn], fun l hl => ?_, clamped_is (by omega) _, clamped_is (by omega) _,
    clamped_is (by omega) _, clamped_is (by omega) _, clamped_is (by omega) _, clamped_is (by omega) _, clamped_is (by omega) _,
    clamped_is (by omega) _, clamped_is (by omega) _, clamped_is (by omega) _, clamped_is (by omega) _, clamped_is (by omega) _,
    rfl, rfl, rfl, rfl, rfl, rfl, rfl⟩
  have hfilter : (newSettings f o).filter = filterOf l := by simp [newSettings, hl]
  rw [hfilter]
  exact ⟨filterOf_sorted l, fun c => mem_filterOf⟩

/-- The filter check is R187's first step. -/
theorem filterOK_given (f : BoardFields) : filterOK (f.filter.getD []) = true ↔
    ∀ l ∈ f.filter, l.length ≤ 4 ∧ ∀ c ∈ l, PlatformCode c := by
  cases f.filter with
  | none => simp [filterOK]
  | some l => simp [filterOK_iff, platformOK_iff]

/-! ### A board state that may have turned -/

/-- What a step that may change the board state leaves of the Paint Engine's requests, job and scrolls: all as they were under
an unchanged board, else the effects of a change, before the arbiter's decision (R130, R137, R140, R155). -/
def BoardTurned (s t : State) : Prop :=
  t.paint.lastGranted = s.paint.lastGranted ∧ t.paint.job.map Job.slot = s.paint.job.map Job.slot ∧
    (t.board = s.board → t.paint.job = s.paint.job ∧ Part.requests.same s t ∧
      t.paint.callingScroll = s.paint.callingScroll ∧ t.paint.bannerScroll = s.paint.bannerScroll) ∧
    (t.board ≠ s.board → t.paint.clockRequest = true ∧ t.paint.bannerCompose = (bannerLine t).isSome ∧
      (bannerLine t ≠ bannerLine s → t.paint.bannerScroll = .still ∧ t.paint.bannerStep = false) ∧
      (bannerLine t = bannerLine s → t.paint.bannerScroll = s.paint.bannerScroll) ∧
      (bannerLine t = some 1 → bannerLine s ≠ some 1 → t.paint.callingScroll = .still ∧ t.paint.callingStep = false) ∧
      (¬ (bannerLine t = some 1 ∧ bannerLine s ≠ some 1) → t.paint.callingScroll = s.paint.callingScroll))

theorem boardTurned_of_same {s t : State} (hb : t.board = s.board) (hp : t.paint = s.paint) : BoardTurned s t := by
  unfold BoardTurned Part.same
  rw [hp]
  exact ⟨rfl, rfl, fun _ => ⟨rfl, ⟨rfl, rfl, rfl, rfl⟩, rfl, rfl⟩, fun hn => absurd hb hn⟩

/-- The parts the turn of a board state does not read. -/
theorem BoardTurned.congr {r s t u : State} (h : BoardTurned s t) (hs : SameBut [.settings, .order, .dirty, .time] r s)
    (ht : SameBut [.dirOp, .eraseMarks, .dirty, .results] t u) : BoardTurned r u := by
  have hlineS : bannerLine s = bannerLine r := bannerLine_congr (hs .board (by simp)) (hs .geometry (by simp)) (hs .banner (by simp))
  have hlineT : bannerLine u = bannerLine t := bannerLine_congr (ht .board (by simp)) (ht .geometry (by simp)) (ht .banner (by simp))
  have hbS : s.board = r.board := hs .board (by simp)
  have hbT : u.board = t.board := ht .board (by simp)
  obtain ⟨hjS, hlS⟩ : Part.arbiter.same r s := hs .arbiter (by simp)
  obtain ⟨hjT, hlT⟩ : Part.arbiter.same t u := ht .arbiter (by simp)
  have hrS : Part.requests.same r s := hs .requests (by simp)
  have hrT : Part.requests.same t u := ht .requests (by simp)
  have hcS : s.paint.callingScroll = r.paint.callingScroll := hs .callingScroll (by simp)
  have hcT : u.paint.callingScroll = t.paint.callingScroll := ht .callingScroll (by simp)
  have hnS : s.paint.bannerScroll = r.paint.bannerScroll := hs .bannerScroll (by simp)
  have hnT : u.paint.bannerScroll = t.paint.bannerScroll := ht .bannerScroll (by simp)
  obtain ⟨hlast, hslot, hsame, hturn⟩ := h
  refine ⟨hlT.trans (hlast.trans hlS), by rw [hjT, hslot, hjS], fun hb => ?_, fun hb => ?_⟩
  · obtain ⟨h1, h2, h3, h4⟩ := hsame (by rw [← hbT, hb, hbS])
    exact ⟨hjT.trans (h1.trans hjS), Part.same_trans hrS (Part.same_trans h2 hrT), hcT.trans (h3.trans hcS),
      hnT.trans (h4.trans hnS)⟩
  · obtain ⟨hc1, hc2, hc3, hc4⟩ := hrT
    rw [hbT, ← hbS] at hb
    rw [hlineT, ← hlineS, hcT, hnT, ← hcS, ← hnS, hc1, hc2, hc3, hc4]
    exact hturn hb

theorem applyBoard_turned (new : BoardState) (s : State) (h : new ≠ s.board) : BoardTurned s (applyBoard new s) := by
  obtain ⟨job, heq, hslot⟩ := applyBoard_paint new s
  have hline : bannerLine (applyBoard new s) = bannerLine (s.withBoard new) := by
    rw [heq]
    exact bannerLine_congr rfl rfl rfl
  refine ⟨by rw [heq]; rfl, by rw [heq]; exact hslot, fun hb => absurd (by rw [← hb, heq]; rfl) h, fun _ => ?_⟩
  rw [hline, heq]
  exact ⟨rfl, rfl, fun hn => ⟨if_neg hn, if_neg hn⟩, fun he => if_pos he, fun h1 h2 => ⟨if_pos ⟨h1, h2⟩, if_pos ⟨h1, h2⟩⟩,
    fun hn => if_neg hn⟩

theorem selectBoard_turned (s : State) : BoardTurned s (selectBoard s) := by
  unfold selectBoard
  dsimp only
  split
  · exact boardTurned_of_same rfl rfl
  · next h => exact applyBoard_turned _ s h

/-- A turn of the board state, taken whole (R155). -/
theorem boardChanged_settle {s u : State} (h : BoardTurned s u) (hb : u.board ≠ s.board)
    (hdirty : ∀ n, n ∈ u.paint.dirty ↔ n ∈ List.range (s.lines - 1) ∨ n ∈ s.paint.dirty) : BoardChanged s (settle u) := by
  obtain ⟨-, hslot, -, hturn⟩ := h
  obtain ⟨hclock, hcompose, hlost, hkept, hyield, hcalling⟩ := hturn hb
  have hjob : u.paint.job = none → s.paint.job = none := fun hn => by rw [hn] at hslot; simpa using hslot.symm
  have hline : bannerLine (settle u) = bannerLine u := bannerLine_congr (by simp) (by simp) (by simp)
  obtain ⟨hnstep, -, hncompose, hnbstep, -⟩ := settle_noneRaised u
  have hoff {x y : Bool} (himp : y = true → x = true) (hx : x = false) : y = false := by
    cases y with
    | false => rfl
    | true => exact absurd (himp rfl) (by simp [hx])
  unfold BoardChanged
  rw [hline, settle_paint_bannerScroll, settle_paint_callingScroll]
  refine ⟨settle_marked hjob hdirty, settle_clockRaised hjob hclock, fun hn => ?_, hkept, fun hn => ?_, fun hn => ?_, fun h1 h2 => ?_,
    hcalling⟩
  · exact ⟨(hlost hn).1, hoff hnbstep (hlost hn).2⟩
  · exact settle_composeRaised hjob (by rw [hcompose]; exact Option.isSome_iff_ne_none.2 hn)
  · exact hoff hncompose (by rw [hcompose, hn]; rfl)
  · exact ⟨(hyield h1 h2).1, hoff hnstep (hyield h1 h2).2⟩

end Sys2Proof.Machine

/-! O57. What each changed setting sets off, step by step, and SET BOARD whole. -/

namespace Sys2Proof.Machine

/-! ### The filter and the origin -/

theorem withFilterApplied_facts (new : Settings) {s : State} (hinv : TableInv s) :
    SameBut [.settings, .order, .dirty] s (withFilterApplied new s) ∧ (withFilterApplied new s).settings = new ∧
      (withFilterApplied new s).table.order = runningOrder new.filter s.table.slots ∧
      ∀ n, n ∈ (withFilterApplied new s).paint.dirty ↔ (new.filter ≠ s.settings.filter ∧ n + 1 < s.lines) ∨ n ∈ s.paint.dirty := by
  obtain ⟨-, -, -, hord, -⟩ := hinv
  have hkeep : SameBut [.settings] s (s.withSettings new) := by
    intro p hp
    cases p <;> simp_all [Part.same]
  have happly (u : State) : SameBut [.order, .dirty] u (applyFilter u) := by
    intro p hp
    cases p <;> simp_all [Part.same, applyFilter]
  unfold withFilterApplied
  split
  · next h =>
    refine ⟨(hkeep.trans (happly _)).mono (by decide), rfl, rfl, fun n => ?_⟩
    have hlt : n < s.lines - 1 ↔ n + 1 < s.lines := by omega
    show n ∈ setInsertAll (List.range (s.lines - 1)) s.paint.dirty ↔ _
    simp [h, hlt]
  · next h =>
    have h : new.filter = s.settings.filter := not_not.1 h
    exact ⟨hkeep.mono (by decide), rfl, by rw [h]; exact hord, fun n => by simp [h]⟩

/-- The origin's part: the rollover hold ended and "now" recomputed (R37). -/
def withOriginApplied (old : Settings) (s : State) : State :=
  if s.settings.origin ≠ old.origin then applyOrigin s else s

theorem withOriginApplied_facts (old : Settings) (s : State) :
    SameBut [.time] s (withOriginApplied old s) ∧
      (withOriginApplied old s).time = { s.time with
        now := (withOriginApplied old s).time.now, rollHold := (withOriginApplied old s).time.rollHold } ∧
      (s.settings.origin = old.origin → (withOriginApplied old s).time.now = s.time.now ∧
        (withOriginApplied old s).time.rollHold = s.time.rollHold) ∧
      (s.settings.origin ≠ old.origin → (withOriginApplied old s).time.rollHold = false ∧
        (withOriginApplied old s).time.now = serviceMinute s.settings.origin s.time.minute) := by
  unfold withOriginApplied
  split
  · next h =>
    refine ⟨?_, rfl, fun he => absurd he h, fun _ => ⟨rfl, rfl⟩⟩
    exact ((withTime_sameBut _ s).trans (withTime_sameBut _ _)).mono (by decide)
  · next h => exact ⟨.refl _ s, rfl, fun _ => ⟨rfl, rfl⟩, fun hn => absurd hn h⟩

/-! ### The holdover limit -/

/-- A changed holdover limit lapses a fresh feed whose timer stands at or above it (R50). -/
def LapsesUnder (old : Settings) (s : State) : Prop :=
  s.settings.holdover ≠ old.holdover ∧ s.time.freshness = .fresh ∧ 60000 * s.settings.holdover ≤ s.time.freshTimer

/-- The holdover limit's part (R50). -/
def withHoldoverApplied (old : Settings) (s : State) : State :=
  if s.settings.holdover ≠ old.holdover then applyHoldover s else s

theorem withHoldoverApplied_lapsed {old : Settings} {s : State} (h : LapsesUnder old s) : withHoldoverApplied old s =
    selectBoard (s.withTime { s.time with freshness := .lapsed, freshTimer := 60000 * s.settings.holdover }) := by
  obtain ⟨hne, hfresh, hle⟩ := h
  unfold withHoldoverApplied applyHoldover lapseFeed
  rw [if_pos hne, if_pos ⟨hfresh, hle⟩, hfresh]
  rfl

theorem withHoldoverApplied_stays {old : Settings} {s : State} (h : ¬ LapsesUnder old s) : withHoldoverApplied old s = s := by
  unfold withHoldoverApplied applyHoldover
  split
  · next hne => exact if_neg fun hl => h ⟨hne, hl⟩
  · rfl

theorem withHoldoverApplied_facts (old : Settings) (s : State) :
    ∃ a, Repaints a s (withHoldoverApplied old s) ∧ (a = true ↔ (withHoldoverApplied old s).board ≠ s.board) ∧
      BoardTurned s (withHoldoverApplied old s) ∧
      (s.board = deriveBoard s.feed.station s.time.freshness s.time.valid →
        (withHoldoverApplied old s).board = deriveBoard s.feed.station (withHoldoverApplied old s).time.freshness s.time.valid) ∧
      (withHoldoverApplied old s).feed = s.feed ∧
      (withHoldoverApplied old s).time = { s.time with
        freshness := (withHoldoverApplied old s).time.freshness, freshTimer := (withHoldoverApplied old s).time.freshTimer } ∧
      (LapsesUnder old s → (withHoldoverApplied old s).time.freshness = .lapsed ∧
        (withHoldoverApplied old s).time.freshTimer = 60000 * s.settings.holdover) ∧
      (¬ LapsesUnder old s → (withHoldoverApplied old s).time.freshness = s.time.freshness ∧
        (withHoldoverApplied old s).time.freshTimer = s.time.freshTimer) := by
  by_cases h : LapsesUnder old s
  · rw [withHoldoverApplied_lapsed h]
    have hturn := selectBoard_turned (s.withTime { s.time with freshness := .lapsed, freshTimer := 60000 * s.settings.holdover })
    obtain ⟨a, ha, hb, hder, ht, hfeed⟩ :=
      selectBoard_repaints (s.withTime { s.time with freshness := .lapsed, freshTimer := 60000 * s.settings.holdover })
    rw [ht]
    exact ⟨a, (repaints_withTime _ s).trans ha, hb, hturn.congr ((withTime_sameBut _ s).mono (by decide)) (.refl _ _), fun _ => hder,
      hfeed, rfl, fun _ => ⟨rfl, rfl⟩, fun hn => absurd h hn⟩
  · rw [withHoldoverApplied_stays h]
    exact ⟨false, repaints_of_sameBut (.refl _ s), by simp, boardTurned_of_same rfl rfl, fun hx => hx, rfl, rfl, fun hn => absurd hn h,
      fun _ => ⟨rfl, rfl⟩⟩

/-! ### Auto-suspend and the small font -/

/-- Auto-suspend's part (R87). -/
def withSuspendApplied (old : Settings) (s : State) : State :=
  if s.settings.autoSuspend ≠ old.autoSuspend then applyAutoSuspend s else s

theorem withSuspendApplied_sameBut (old : Settings) (s : State) :
    SameBut [.dirOp, .eraseMarks] s (withSuspendApplied old s) := by
  have hraise : SameBut [.dirOp, .eraseMarks] s (directoryRaise s) := by
    unfold directoryRaise
    split
    · split
      · intro p hp; cases p <;> simp_all [Part.same]
      · exact .refl _ s
    · exact .refl _ s
  have hwithdraw : SameBut [.dirOp, .eraseMarks] s (directoryWithdraw s) := by
    unfold directoryWithdraw
    split
    · intro p hp; cases p <;> simp_all [Part.same, startErasing]
    · exact .refl _ s
  unfold withSuspendApplied applyAutoSuspend
  split
  · split
    · split
      · exact hraise
      · exact .refl _ s
    · exact hwithdraw
  · exact .refl _ s

/-- Auto-suspend turned off resumes an erase suspended for a paint request; turned on under a request it suspends a running
erase; nothing else moves the directory (R86, R87). -/
theorem withSuspendApplied_dir (old : Settings) (s : State) :
    (∀ e c, s.dir.op = .suspended e c .paint → old.autoSuspend = true → s.settings.autoSuspend = false →
      (withSuspendApplied old s).dir.op = .erasing e { c with begun := true } ∧
        (withSuspendApplied old s).dir.eraseMarks = setInsert c.sector s.dir.eraseMarks) ∧
    (∀ e c, s.dir.op = .erasing e c → s.paint.suspendRequest = true → old.autoSuspend = false → s.settings.autoSuspend = true →
      (withSuspendApplied old s).dir.op = .suspending e c .paint [] ∧
        (withSuspendApplied old s).dir.eraseMarks = s.dir.eraseMarks) ∧
    ((∀ e c, s.dir.op = .suspended e c .paint → ¬ (old.autoSuspend = true ∧ s.settings.autoSuspend = false)) →
      (∀ e c, s.dir.op = .erasing e c →
        ¬ (s.paint.suspendRequest = true ∧ old.autoSuspend = false ∧ s.settings.autoSuspend = true)) →
      (withSuspendApplied old s).dir = s.dir) := by
  unfold withSuspendApplied applyAutoSuspend
  refine ⟨fun e c hop hold hnew => ?_, fun e c hop hreq hold hnew => ?_, fun hoff hon => ?_⟩
  · rw [if_pos (by simp [hold, hnew]), if_neg (by simp [hnew])]
    unfold directoryWithdraw
    rw [hop]
    exact ⟨rfl, rfl⟩
  · rw [if_pos (by simp [hold, hnew]), if_pos hnew, if_pos hreq]
    unfold directoryRaise
    rw [hop]
    dsimp only
    rw [if_pos hnew]
    exact ⟨rfl, rfl⟩
  · split
    · next hne =>
      split
      · next hnew =>
        have hold : old.autoSuspend = false := by simpa [hnew] using hne
        split
        · next hreq =>
          unfold directoryRaise
          split
          · next e c hop => exact absurd ⟨hreq, hold, hnew⟩ (hon e c hop)
          · rfl
        · rfl
      · next hnew =>
        have hnew : s.settings.autoSuspend = false := by simpa using hnew
        have hold : old.autoSuspend = true := by simpa [hnew] using hne
        unfold directoryWithdraw
        split
        · next e c hop => exact absurd ⟨hold, hnew⟩ (hoff e c hop)
        · rfl
    · rfl

/-- The small font's part: the departure lines (R30, R188). -/
def withFontApplied (old : Settings) (s : State) : State :=
  if s.settings.smallFont ≠ old.smallFont then markLines (departureLines s) s else s

theorem withFontApplied_facts (old : Settings) (s : State) :
    SameBut [.dirty] s (withFontApplied old s) ∧ ∀ n, n ∈ (withFontApplied old s).paint.dirty ↔
      (s.settings.smallFont ≠ old.smallFont ∧ n + 1 < s.lines ∧ n ≠ 1) ∨ n ∈ s.paint.dirty := by
  unfold withFontApplied
  split
  · next h =>
    refine ⟨fun p hp => ?_, fun n => ?_⟩
    · cases p <;> simp_all [Part.same]
    · rw [markLines_paint]
      simp [h, mem_departureLines]
  · next h => exact ⟨.refl _ s, fun n => by simp [not_not.1 h]⟩

section
variable {new old : Settings} {s : State} (h : s.settings = new)
include h

theorem withOriginApplied_of : withOriginApplied old s = if new.origin ≠ old.origin then applyOrigin s else s := by
  unfold withOriginApplied; rw [h]

theorem withHoldoverApplied_of : withHoldoverApplied old s = if new.holdover ≠ old.holdover then applyHoldover s else s := by
  unfold withHoldoverApplied; rw [h]

theorem withSuspendApplied_of :
    withSuspendApplied old s = if new.autoSuspend ≠ old.autoSuspend then applyAutoSuspend s else s := by
  unfold withSuspendApplied; rw [h]

theorem withFontApplied_of :
    withFontApplied old s = if new.smallFont ≠ old.smallFont then markLines (departureLines s) s else s := by
  unfold withFontApplied; rw [h]

end

theorem withFilterApplied_settings (new : Settings) (s : State) : (withFilterApplied new s).settings = new := by
  unfold withFilterApplied
  split <;> rfl

theorem withOriginApplied_settings (old : Settings) (s : State) : (withOriginApplied old s).settings = s.settings :=
  (withOriginApplied_facts old s).1 .settings (by decide)

theorem withHoldoverApplied_settings (old : Settings) (s : State) : (withHoldoverApplied old s).settings = s.settings := by
  obtain ⟨a, ha, -⟩ := withHoldoverApplied_facts old s
  exact ha.1 .settings (by decide)

theorem withSuspendApplied_settings (old : Settings) (s : State) : (withSuspendApplied old s).settings = s.settings :=
  withSuspendApplied_sameBut old s .settings (by decide)

/-- The changed settings are handed to their blocks one after another. -/
theorem applySettings_eq (new : Settings) (s : State) : applySettings new s =
    withFontApplied s.settings (withSuspendApplied s.settings (withHoldoverApplied s.settings
      (withOriginApplied s.settings (withFilterApplied new s)))) := by
  have h1 := withFilterApplied_settings new s
  have h2 := (withOriginApplied_settings s.settings (withFilterApplied new s)).trans h1
  have h3 := (withHoldoverApplied_settings s.settings _).trans h2
  have h4 := (withSuspendApplied_settings s.settings _).trans h3
  rw [withFontApplied_of h4, withSuspendApplied_of h3, withHoldoverApplied_of h2, withOriginApplied_of h1]
  rfl

/-! ### The settings applied, whole -/

/-- What an accepted SET BOARD leaves before the arbiter's decision, of everything but the directory and the time. -/
theorem applySettings_facts (new : Settings) {s : State} (hinv : TableInv s) :
    SameBut (([.settings, .order, .time, .board, .callingScroll, .bannerScroll, .feed] : List Part) ++ arbiterParts) s
        (applySettings new s) ∧
      (applySettings new s).settings = new ∧ (applySettings new s).feed = s.feed ∧
      (applySettings new s).table.order = runningOrder new.filter s.table.slots ∧
      BoardTurned s (applySettings new s) ∧ (applySettings new s).paint.suspendRequest = s.paint.suspendRequest ∧
      ∀ n, n ∈ (applySettings new s).paint.dirty ↔ (n + 1 < s.lines ∧ (new.filter ≠ s.settings.filter ∨
        (applySettings new s).board ≠ s.board ∨ (new.smallFont ≠ s.settings.smallFont ∧ n ≠ 1))) ∨ n ∈ s.paint.dirty := by
  rw [applySettings_eq]
  obtain ⟨f1, f2, f3, f4⟩ := withFilterApplied_facts new hinv
  generalize withFilterApplied new s = x1 at *
  obtain ⟨o1, -⟩ := withOriginApplied_facts s.settings x1
  generalize withOriginApplied s.settings x1 = x2 at *
  obtain ⟨a, h1, h2, h3, -, h5, -⟩ := withHoldoverApplied_facts s.settings x2
  generalize withHoldoverApplied s.settings x2 = x3 at *
  have p1 := withSuspendApplied_sameBut s.settings x3
  generalize withSuspendApplied s.settings x3 = x4 at *
  obtain ⟨m1, m2⟩ := withFontApplied_facts s.settings x4
  generalize withFontApplied s.settings x4 = x5 at *
  obtain ⟨r1, r2, -⟩ := h1
  have hset4 : x4.settings = new :=
    (p1 .settings (by decide)).trans ((r1 .settings (by decide)).trans ((o1 .settings (by decide)).trans f2))
  have hgeo2 : x2.geometry = s.geometry := (o1 .geometry (by decide)).trans (f1 .geometry (by decide))
  have hgeo4 : x4.geometry = s.geometry :=
    (p1 .geometry (by decide)).trans ((r1 .geometry (by decide)).trans hgeo2)
  have hboard2 : x2.board = s.board := (o1 .board (by decide)).trans (f1 .board (by decide))
  have hboard5 : x5.board = x3.board := (m1 .board (by decide)).trans (p1 .board (by decide))
  have hdirty2 : x2.paint.dirty = x1.paint.dirty := o1 .dirty (by decide)
  have hdirty4 : x4.paint.dirty = x3.paint.dirty := p1 .dirty (by decide)
  have hlines2 : x2.lines = s.lines := congrArg boardLines hgeo2
  have hlines4 : x4.lines = s.lines := congrArg boardLines hgeo4
  refine ⟨(((f1.trans o1).trans r1).trans (p1.trans m1)).mono (by decide), (m1 .settings (by decide)).trans hset4, ?_, ?_, ?_, ?_,
    fun n => ?_⟩
  · exact (m1 .feed (by decide)).trans ((p1 .feed (by decide)).trans (h5.trans ((o1 .feed (by decide)).trans (f1 .feed (by decide)))))
  · exact (m1 .order (by decide)).trans ((p1 .order (by decide)).trans ((r1 .order (by decide)).trans ((o1 .order (by decide)).trans f3)))
  · exact h3.congr ((f1.trans o1).mono (by decide)) ((p1.trans m1).mono (by decide))
  · exact (m1 .suspendRequest (by decide)).trans ((p1 .suspendRequest (by decide)).trans ((r1 .suspendRequest (by decide)).trans
      ((o1 .suspendRequest (by decide)).trans (f1 .suspendRequest (by decide)))))
  · rw [m2, hdirty4, r2, hdirty2, f4, hset4, hlines4, hlines2, h2, hboard2, hboard5]
    tauto

/-- What an accepted SET BOARD leaves of the time and the board state (R37, R50, R154). -/
theorem applySettings_time (new : Settings) (s : State) :
    (applySettings new s).time = { s.time with
        now := (applySettings new s).time.now, rollHold := (applySettings new s).time.rollHold
        freshness := (applySettings new s).time.freshness, freshTimer := (applySettings new s).time.freshTimer } ∧
      (new.origin = s.settings.origin → (applySettings new s).time.now = s.time.now ∧
        (applySettings new s).time.rollHold = s.time.rollHold) ∧
      (new.origin ≠ s.settings.origin → (applySettings new s).time.rollHold = false ∧
        (applySettings new s).time.now = serviceMinute new.origin s.time.minute) ∧
      ((new.holdover ≠ s.settings.holdover ∧ s.time.freshness = .fresh ∧ 60000 * new.holdover ≤ s.time.freshTimer) →
        (applySettings new s).time.freshness = .lapsed ∧ (applySettings new s).time.freshTimer = 60000 * new.holdover) ∧
      (¬ (new.holdover ≠ s.settings.holdover ∧ s.time.freshness = .fresh ∧ 60000 * new.holdover ≤ s.time.freshTimer) →
        (applySettings new s).time.freshness = s.time.freshness ∧ (applySettings new s).time.freshTimer = s.time.freshTimer) ∧
      (s.board = deriveBoard s.feed.station s.time.freshness s.time.valid →
        (applySettings new s).board = deriveBoard s.feed.station (applySettings new s).time.freshness s.time.valid) := by
  rw [applySettings_eq]
  have f2 := withFilterApplied_settings new s
  have ftime : (withFilterApplied new s).time = s.time := by unfold withFilterApplied; split <;> rfl
  have ffeed : (withFilterApplied new s).feed = s.feed := by unfold withFilterApplied; split <;> rfl
  have fboard : (withFilterApplied new s).board = s.board := by unfold withFilterApplied; split <;> rfl
  generalize withFilterApplied new s = x1 at *
  obtain ⟨o1, o2, o3, o4⟩ := withOriginApplied_facts s.settings x1
  generalize withOriginApplied s.settings x1 = x2 at *
  obtain ⟨a, -, -, -, h4, -, h6, h7, h8⟩ := withHoldoverApplied_facts s.settings x2
  generalize withHoldoverApplied s.settings x2 = x3 at *
  have p1 := withSuspendApplied_sameBut s.settings x3
  generalize withSuspendApplied s.settings x3 = x4 at *
  obtain ⟨m1, -⟩ := withFontApplied_facts s.settings x4
  generalize withFontApplied s.settings x4 = x5 at *
  have htime5 : x5.time = x3.time := (m1 .time (by decide)).trans (p1 .time (by decide))
  have hboard5 : x5.board = x3.board := (m1 .board (by decide)).trans (p1 .board (by decide))
  have hset2 : x2.settings = new := (o1 .settings (by decide)).trans f2
  have hboard2 : x2.board = s.board := (o1 .board (by decide)).trans fboard
  have hfeed2 : x2.feed = s.feed := (o1 .feed (by decide)).trans ffeed
  have hfresh2 : x2.time.freshness = s.time.freshness := by rw [o2, ftime]
  have htimer2 : x2.time.freshTimer = s.time.freshTimer := by rw [o2, ftime]
  have hvalid2 : x2.time.valid = s.time.valid := by rw [o2, ftime]
  have hnow3 : x3.time.now = x2.time.now := by rw [h6]
  have hhold3 : x3.time.rollHold = x2.time.rollHold := by rw [h6]
  unfold LapsesUnder at h7 h8
  rw [hset2, hfresh2, htimer2] at h7 h8
  rw [hboard2, hfeed2, hfresh2, hvalid2] at h4
  rw [f2, ftime] at o3 o4
  rw [htime5, hboard5, hnow3, hhold3]
  refine ⟨?_, o3, o4, h7, h8, h4⟩
  rw [h6, o2, ftime]

/-- What an accepted SET BOARD leaves of the directory (R86, R87). -/
theorem applySettings_dir (new : Settings) (s : State) :
    (∀ e c, s.dir.op = .suspended e c .paint → s.settings.autoSuspend = true → new.autoSuspend = false →
      (applySettings new s).dir.op = .erasing e { c with begun := true } ∧
        (applySettings new s).dir.eraseMarks = setInsert c.sector s.dir.eraseMarks) ∧
    (∀ e c, s.dir.op = .erasing e c → s.paint.suspendRequest = true → s.settings.autoSuspend = false → new.autoSuspend = true →
      (applySettings new s).dir.op = .suspending e c .paint [] ∧ (applySettings new s).dir.eraseMarks = s.dir.eraseMarks) ∧
    ((∀ e c, s.dir.op = .suspended e c .paint → ¬ (s.settings.autoSuspend = true ∧ new.autoSuspend = false)) →
      (∀ e c, s.dir.op = .erasing e c →
        ¬ (s.paint.suspendRequest = true ∧ s.settings.autoSuspend = false ∧ new.autoSuspend = true)) →
      (applySettings new s).dir.op = s.dir.op ∧ (applySettings new s).dir.eraseMarks = s.dir.eraseMarks) := by
  rw [applySettings_eq]
  have fset := withFilterApplied_settings new s
  have fdir : (withFilterApplied new s).dir = s.dir := by unfold withFilterApplied; split <;> rfl
  have fsus : (withFilterApplied new s).paint.suspendRequest = s.paint.suspendRequest := by
    unfold withFilterApplied; split <;> rfl
  generalize withFilterApplied new s = x1 at *
  obtain ⟨o1, -⟩ := withOriginApplied_facts s.settings x1
  generalize withOriginApplied s.settings x1 = x2 at *
  obtain ⟨a, ⟨r1, -⟩, -⟩ := withHoldoverApplied_facts s.settings x2
  generalize withHoldoverApplied s.settings x2 = x3 at *
  have d := withSuspendApplied_dir s.settings x3
  generalize withSuspendApplied s.settings x3 = x4 at *
  obtain ⟨m1, -⟩ := withFontApplied_facts s.settings x4
  generalize withFontApplied s.settings x4 = x5 at *
  have hop3 : x3.dir.op = s.dir.op := (r1 .dirOp (by decide)).trans ((o1 .dirOp (by decide)).trans (by rw [fdir]))
  have hmarks3 : x3.dir.eraseMarks = s.dir.eraseMarks :=
    (r1 .eraseMarks (by decide)).trans ((o1 .eraseMarks (by decide)).trans (by rw [fdir]))
  have hset3 : x3.settings = new := (r1 .settings (by decide)).trans ((o1 .settings (by decide)).trans fset)
  have hsus3 : x3.paint.suspendRequest = s.paint.suspendRequest :=
    (r1 .suspendRequest (by decide)).trans ((o1 .suspendRequest (by decide)).trans fsus)
  have hop5 : x5.dir.op = x4.dir.op := m1 .dirOp (by decide)
  have hmarks5 : x5.dir.eraseMarks = x4.dir.eraseMarks := m1 .eraseMarks (by decide)
  rw [hop3, hmarks3, hset3, hsus3] at d
  obtain ⟨d1, d2, d3⟩ := d
  rw [hop5, hmarks5]
  exact ⟨d1, d2, fun h1 h2 => by rw [d3 h1 h2]; exact ⟨hop3, hmarks3⟩⟩

/-! ### The message -/

section
variable {h : Header} {f : BoardFields} {s : State}

theorem acceptSetBoard_badFilter (hf : filterOK (f.filter.getD []) = false) :
    acceptSetBoard h f s = answer kindSetBoard h 6 0 s := by
  unfold acceptSetBoard
  rw [if_pos (by simp [hf])]
  rfl

theorem acceptSetBoard_notEmpty (hf : filterOK (f.filter.getD []) = true)
    (ho : (newSettings f s.settings).origin ≠ s.settings.origin) (hr : s.records ≠ []) :
    acceptSetBoard h f s = answer kindSetBoard h 19 s.records.length s := by
  unfold acceptSetBoard
  rw [if_neg (by simp [hf]), if_pos ⟨ho, List.length_pos_of_ne_nil hr⟩]
  rfl

theorem acceptSetBoard_accepted (hf : filterOK (f.filter.getD []) = true)
    (ho : (newSettings f s.settings).origin = s.settings.origin ∨ s.records = []) :
    acceptSetBoard h f s = answer kindSetBoard h (if anyClamped f then 1 else 0)
      (changedCount (newSettings f s.settings) s.settings) (applySettings (newSettings f s.settings) s) := by
  have hn : ¬ ((newSettings f s.settings).origin ≠ s.settings.origin ∧ 0 < (recordsOf s.table.slots).length) := by
    rintro ⟨hne, hlen⟩
    exact List.ne_nil_of_length_pos hlen (ho.resolve_left hne)
  unfold acceptSetBoard
  rw [if_neg (by simp [hf])]
  exact if_neg hn

end

end Sys2Proof.Machine

/-! O57. SET BOARD, assembled. -/

namespace Sys2Proof.Machine

/-- The lines an accepted SET BOARD marks (R26, R30, R155, R188). -/
def boardLinesMarked (s : State) (filter board font : Bool) : List Nat :=
  (tableLines s).filter (fun n => filter || board || (font && n != 1))

theorem mem_boardLinesMarked {s : State} {filter board font : Bool} {n : Nat} : n ∈ boardLinesMarked s filter board font ↔
    n + 1 < s.lines ∧ (filter = true ∨ board = true ∨ (font = true ∧ n ≠ 1)) := by
  have hlt : n < s.lines - 1 ↔ n + 1 < s.lines := by omega
  simp [boardLinesMarked, tableLines, hlt, or_assoc]

section
variable {h : Header} {o d : Nat} {new : Settings} {s : State} (hinv : TableInv s)
include hinv

/-- What the arbiter's decision leaves of an accepted SET BOARD: the lines marked, a turn of the board state, and the frame. -/
theorem setBoard_painted :
    let t := settle (answer kindSetBoard h o d (applySettings new s))
    (∃ lines, Marked lines s t ∧ ∀ n, n ∈ lines ↔ n + 1 < s.lines ∧ (new.filter ≠ s.settings.filter ∨ t.board ≠ s.board ∨
      (new.smallFont ≠ s.settings.smallFont ∧ n ≠ 1))) ∧
    (t.board ≠ s.board → BoardChanged s t) ∧
    (t.board = s.board → t.paint.callingScroll = s.paint.callingScroll ∧ t.paint.bannerScroll = s.paint.bannerScroll) ∧
    (Settled t ∧ ∃ u : State, t = settle u ∧ u.settings = new ∧ u.paint.lastGranted = s.paint.lastGranted ∧
      u.paint.job.map Job.slot = s.paint.job.map Job.slot ∧ u.paint.suspendRequest = s.paint.suspendRequest ∧
      (t.board = s.board → u.paint.job = s.paint.job ∧ Part.requests.same s u)) ∧
    SameBut (([.settings, .results, .order, .time, .board, .callingScroll, .bannerScroll] : List Part) ++ arbiterParts) s t := by
  obtain ⟨hsame, hset, hfeed, -, hturn, hsus, hdirty⟩ := applySettings_facts new hinv
  generalize applySettings new s = v at *
  have hans := answer_sameBut kindSetBoard h o d v
  have hturn' : BoardTurned s (answer kindSetBoard h o d v) := hturn.congr (.refl _ s) (hans.mono (by decide))
  have hboard : (settle (answer kindSetBoard h o d v)).board = v.board := by simp
  have hub : (answer kindSetBoard h o d v).board = v.board := by simp
  have hud : (answer kindSetBoard h o d v).paint.dirty = v.paint.dirty := by simp
  have husus : (answer kindSetBoard h o d v).paint.suspendRequest = v.paint.suspendRequest := by simp
  have huset : (answer kindSetBoard h o d v).settings = v.settings := by simp
  have hframe : SameBut (([.settings, .results, .order, .time, .board, .callingScroll, .bannerScroll] : List Part) ++ arbiterParts) s
      (answer kindSetBoard h o d v) := by
    intro p hp
    by_cases hp' : p = .feed
    · subst hp'
      exact (hans .feed (by decide)).trans hfeed
    · exact (hsame.trans hans) p fun hin => by
        simp only [List.mem_append, List.mem_cons, List.not_mem_nil, or_false] at hin hp
        tauto
  generalize answer kindSetBoard h o d v = u at *
  obtain ⟨hlast, hslot, hstays, -⟩ := id hturn'
  have hjob : u.paint.job = none → s.paint.job = none := fun hn => by rw [hn] at hslot; simpa using hslot.symm
  rw [← hud] at hdirty
  dsimp only
  rw [hboard]
  refine ⟨⟨boardLinesMarked s (new.filter ≠ s.settings.filter) (v.board ≠ s.board) (new.smallFont ≠ s.settings.smallFont),
    settle_marked hjob fun n => ?_, fun n => ?_⟩, fun hb => ?_, fun hb => ?_, ⟨settled_settle u, u, rfl, huset.trans hset, hlast, hslot,
    husus.trans hsus, fun hb => ?_⟩, ?_⟩
  · rw [hdirty, mem_boardLinesMarked]
    simp only [decide_eq_true_eq]
  · rw [mem_boardLinesMarked]
    simp only [decide_eq_true_eq]
  · refine boardChanged_settle hturn' (hub ▸ hb) fun n => ?_
    rw [hdirty, List.mem_range]
    have hlt : n < s.lines - 1 ↔ n + 1 < s.lines := by omega
    simp only [hlt, hb, ne_eq, not_false_eq_true, true_or, or_true, and_true]
  · obtain ⟨-, -, hc, hn⟩ := hstays (hub.trans hb)
    exact ⟨by rw [settle_paint_callingScroll, hc], by rw [settle_paint_bannerScroll, hn]⟩
  · obtain ⟨hj, hr, -⟩ := hstays (hub.trans hb)
    exact ⟨hj, hr⟩
  · exact (sameBut_settle hframe).mono (by decide)

end

/-- Settles O57. -/
theorem setBoardTaken : Obligations.SetBoardTaken := by
  intro h f s hl hinv hset hboard
  refine ⟨_, newSettings f s.settings, congrArg Host.Outcome.next (feedEvent_of_listening hl _), fun hbad => ?_, fun hgood => ?_⟩
  · have hf : filterOK (f.filter.getD []) = false := by
      rw [← Bool.not_eq_true, filterOK_given]
      obtain ⟨l, hm, hl⟩ := hbad
      intro hall
      obtain ⟨hlen, hcodes⟩ := hall l hm
      rcases hl with hl | ⟨c, hc, hn⟩
      · omega
      · exact hn (hcodes c hc)
    rw [acceptSetBoard_badFilter hf]
    exact ⟨answered_settle _ _ _ _ _, answer_framed _ _ _ _ _⟩
  have hf : filterOK (f.filter.getD []) = true := (filterOK_given f).2 hgood
  obtain ⟨-, horigin, -⟩ := newSettings_ok hf hset
  refine ⟨newSettings_taken f _, fun ho hr => ?_, fun ho => ?_⟩
  · rw [acceptSetBoard_notEmpty hf ho hr]
    exact ⟨answered_settle _ _ _ _ _, answer_framed _ _ _ _ _⟩
  rw [acceptSetBoard_accepted hf ho]
  generalize newSettings f s.settings = new at *
  obtain ⟨hmarks, hchanged, hscrolls, hwhole, hframe⟩ := setBoard_painted (h := h) (o := if anyClamped f then 1 else 0)
    (d := changedCount new s.settings) (new := new) hinv
  obtain ⟨hsame, hsets, -, horder, -⟩ := applySettings_facts new hinv
  obtain ⟨ht, hnow, hnow', hlapse, hstay, hder⟩ := applySettings_time new s
  obtain ⟨hresume, hsuspend, hother⟩ := applySettings_dir new s
  have hres : (applySettings new s).results = s.results := hsame .results (by decide)
  have hop : (answer kindSetBoard h (if anyClamped f then 1 else 0) (changedCount new s.settings) (applySettings new s)).dir
      = (applySettings new s).dir := by simp
  have hsettled := settle_dirSettled
    (answer kindSetBoard h (if anyClamped f then 1 else 0) (changedCount new s.settings) (applySettings new s))
  have htime : (settle (answer kindSetBoard h (if anyClamped f then 1 else 0) (changedCount new s.settings)
      (applySettings new s))).time = (applySettings new s).time := by simp
  rw [hop] at hsettled
  refine ⟨by simp [hsets], by simp [horder], fun hc => ?_, fun hc => ?_, by rw [htime]; exact ht, by rw [htime]; exact hnow, ?_,
    by rw [htime]; exact hlapse, by rw [htime]; exact hstay, ?_, hmarks, fun e c hsus hold hoff => ?_, fun e c her hreq hold hon => ?_,
    fun h1 h2 => ?_, hchanged, hscrolls, hwhole, hframe⟩
  · rw [if_pos ((anyClamped_iff f).2 hc)]
    exact answered_after hres
  · rw [if_neg fun hx => hc ((anyClamped_iff f).1 hx)]
    exact answered_after hres
  · rw [htime]
    intro hne
    obtain ⟨hhold, hmin⟩ := hnow' hne
    refine ⟨hhold, fun _ => ⟨(fun hx => nomatch hx), fun _ => ?_⟩⟩
    rw [hmin]
    exact serviceMinute_is horigin
  · rw [htime, settle_board, answer_board, boardIs_iff]
    exact hder (boardIs_iff.1 hboard)
  · obtain ⟨h1, h2⟩ := hresume e c hsus hold hoff
    rwa [h1, h2] at hsettled
  · obtain ⟨h1, h2⟩ := hsuspend e c her hreq hold hon
    rw [settle_dir (by rw [hop, h1]; simp) (by rw [hop, h1]; simp), hop]
    exact ⟨h1, h2⟩
  · obtain ⟨h3, h4⟩ := hother h1 h2
    rwa [h3, h4] at hsettled

end Sys2Proof.Machine

/-! O56. The contents of the three reads: the model's coding of items is that of section 9.6. -/

namespace Sys2Proof.Machine

/-! ### Octets -/

theorem octets2_eq : octets2 = wordOf := by
  funext n
  have hlow : octet1 (n % 256) = byteOf n := by
    apply BitVec.eq_of_toNat_eq
    simp [octet1, byteOf]
  show [octet1 (n / 256), octet1 (n % 256)] = _
  rw [hlow]
  rfl

theorem signed2_eq : signed2 = signedOf := by
  funext i
  show octets2 _ = _
  rw [octets2_eq]
  rfl

theorem yesNo_eq (b : Bool) : yesNo b = flagOf b := rfl

theorem textOctets_eq : textOctets = countedText := rfl

theorem present_eq {α : Type} (f : α → List Byte) (o : Option α) : present f o = itemOf f o := by
  cases o <;> rfl

/-! ### READ SERVICE and READ PLACE -/

theorem positionOf_none {key : Nat} {order : List Nat} : positionOf key order = none ↔ key ∉ order := by
  unfold positionOf
  rw [List.findIdx?_eq_none_iff]
  simp only [beq_eq_false_iff_ne]
  exact ⟨fun h hm => h key hm rfl, fun h k hk hx => h (hx ▸ hk)⟩

theorem positionOf_some {key p : Nat} {order : List Nat} (h : positionOf key order = some p) :
    order[p]? = some key ∧ ∀ i < p, order[i]? ≠ some key := by
  unfold positionOf at h
  obtain ⟨hlt, hp, hbefore⟩ := List.findIdx?_eq_some_iff_getElem.1 h
  refine ⟨by rw [List.getElem?_eq_getElem hlt]; simpa using hp, fun i hi hx => ?_⟩
  rw [List.getElem?_eq_getElem (hi.trans hlt)] at hx
  have := hbefore i hi
  simp at hx this
  exact this hx

/-- A stop's flags in one octet (R179). -/
theorem stopFlags_eq (request skipped : Bool) : octet1 (request.toNat + 2 * skipped.toNat) = flagOf request + 2 * flagOf skipped := by
  cases request <;> cases skipped <;> rfl

theorem stopsOctets_eq (stops : List Stop) : stopsOctets stops = [byteOf stops.length] ++
    stops.flatMap (fun st => wordOf st.place ++ [flagOf st.request + 2 * flagOf st.skipped]) := by
  unfold stopsOctets
  simp only [octets2_eq, stopFlags_eq]
  rfl

/-- The lifecycle and the leave cause in octets (log entry 18). -/
def lifeOctets (life : Lifecycle) : List Byte :=
  match life with
  | .live => [0, 0]
  | .leaving .retired => [1, 1, 0]
  | .leaving .timedOut => [1, 1, 1]
  | .leaving .rolledOff => [1, 1, 2]

theorem lifeOctets_eq (r : Record) (l : List Byte) :
    one (if r.isLive then 0 else 1) ++ (present (fun c => one (leaveCauseNumber c)) r.cause ++ l) = lifeOctets r.life ++ l := by
  unfold Record.isLive Record.cause
  cases r.life with
  | live => rfl
  | leaving c => cases c <;> rfl

/-- The running state in one octet (R179). -/
def stateOctet (state : RunState) : Byte :=
  match state with
  | .scheduled => 0
  | .estimated => 1
  | .unknownDelay => 2
  | .cancelled => 3

theorem stateOctet_eq (state : RunState) : one (runStateCode state) = [stateOctet state] := by
  cases state <;> rfl

/-- The content of READ SERVICE is R28's. -/
theorem serviceContent_is (s : State) (r : Record) : ServiceContentIs s r (serviceContent s r) := by
  refine ⟨positionOf r.key s.table.order, positionOf_none, fun p => positionOf_some, ?_⟩
  have hvisible : visibleUnder s.settings.filter r = decide (s.settings.filter = [] ∨ r.platform ∈ s.settings.filter) := by
    rw [Bool.eq_iff_iff, visibleUnder_iff, decide_eq_true_eq]
  have hshown (p : Nat) : decide (∃ q ∈ some p, q < s.lines - 2) = decide (p < s.shownCount) :=
    decide_eq_decide.2 (by simp [State.shownCount, shownPositions, State.lines])
  have hnone : decide (∃ q ∈ (none : Option Nat), q < s.lines - 2) = false := by simp
  unfold serviceContent
  dsimp only
  rw [stateOctet_eq, hvisible, stopsOctets_eq, octets2_eq, signed2_eq, textOctets_eq]
  generalize positionOf r.key s.table.order = position
  simp only [List.append_assoc]
  rw [lifeOctets_eq]
  simp only [present_eq, yesNo_eq]
  cases position with
  | none => rw [hnone]; rfl
  | some p => rw [hshown]; rfl

/-- The content of READ PLACE is R90's. -/
theorem placeContent_is (s : State) (place : Nat) : PlaceContentIs s place (placeContent s place) := by
  have hbank : bankOfPlace place = if place < 512 then .a else .b := by
    unfold bankOfPlace bankOfSector sectorOf
    by_cases h : place < 512
    · rw [if_pos h, if_pos (by omega)]
    · rw [if_neg h, if_neg (by omega)]
  have hpresent : (decide (slotState s.dir place = .valid) && (bankBusy s.dir.op (bankOfPlace place)).isNone) = true ↔
      NamesPresent s place := by
    simp [NamesPresent, hbank, Option.isNone_iff_eq_none]
  have hcontains (l : List Nat) : yesNo (l.contains (sectorOf place)) = flagOf (decide (place / 128 ∈ l)) := by
    rw [List.contains_eq_mem]
    rfl
  generalize hshown : (decide (slotState s.dir place = .valid) && (bankBusy s.dir.op (bankOfPlace place)).isNone) = shown at hpresent
  refine ⟨one (if slotState s.dir place ≠ .valid then 2 else if shown then 0 else 1)
    ++ present textOctets (if shown then some (placeEntry s.dir place).full else none)
    ++ present textOctets (if shown then (placeEntry s.dir place).short else none)
    ++ present id (if shown then some (placeEntry s.dir place).code else none), ?_, fun e hn he => ?_, fun hv hn => ?_, fun hv => ?_⟩
  · unfold placeContent
    dsimp only
    rw [hshown, hcontains, hcontains, octets2_eq]
    simp only [List.append_assoc]
    rfl
  · have he : placeEntry s.dir place = e := by
      unfold placeEntry
      rw [show (cellGet StoredSlot.erased s.dir.storage place).entry = some e from he]
      rfl
    rw [hpresent.2 hn, he, if_neg (not_not.2 hn.1)]
    simp only [if_true, present_eq, textOctets_eq]
    rfl
  · have hoff : shown = false := by rw [← Bool.not_eq_true, hpresent]; exact hn
    rw [hoff, if_neg (not_not.2 hv)]
    rfl
  · have hoff : shown = false := by rw [← Bool.not_eq_true, hpresent]; exact fun hn => hv hn.1
    rw [hoff, if_pos hv]
    rfl

/-! ### READ BOARD, section by section -/

theorem timeSection_eq (s : State) : timeSection s = timeItems s := by
  unfold timeSection timeItems
  rw [octets2_eq]
  cases s.time.freshness with
  | fresh => simp only [yesNo_eq, List.append_assoc]; rfl
  | lapsed => simp only [yesNo_eq, List.append_assoc]; rfl

theorem tableSection_eq (s : State) : tableSection s = tableItems s := by
  unfold tableSection tableItems
  cases s.table.window with
  | closed => rfl
  | opened expiry cap =>
    simp only [octets2_eq, present_eq, List.append_assoc]
    rfl

/-! ### Slots counted by their state -/

section Cells

variable {α : Type} [DecidableEq α] {d : α} {hi lo : Nat} {m : List (Nat × α)}

theorem cells_sorted (h : cellsFrom d hi lo m = true) :
    (m.map Prod.fst).Pairwise (· < ·) ∧ ∀ a ∈ m.map Prod.fst, lo ≤ a ∧ a < hi := by
  induction m generalizing lo with
  | nil => exact ⟨.nil, by simp⟩
  | cons c r ih =>
    obtain ⟨a, v⟩ := c
    obtain ⟨hlo, hlt, -, hrest⟩ := cellsFrom_cons.1 h
    obtain ⟨hsorted, hrange⟩ := ih hrest
    refine ⟨List.pairwise_cons.2 ⟨fun b hb => (hrange b hb).1, hsorted⟩, fun b hb => ?_⟩
    rcases List.mem_cons.1 hb with rfl | hb
    · exact ⟨hlo, hlt⟩
    · have := hrange b hb
      omega

/-- A table lists exactly the addresses whose value is not the default. -/
theorem mem_cells {a : Nat} {v : α} (h : cellsFrom d hi lo m = true) (hv : v ≠ d) : (a, v) ∈ m ↔ cellGet d m a = v := by
  induction m generalizing lo with
  | nil => simpa [cellGet] using fun hx : d = v => hv hx.symm
  | cons c r ih =>
    obtain ⟨b, w⟩ := c
    obtain ⟨-, -, -, hrest⟩ := cellsFrom_cons.1 h
    by_cases hab : a = b
    · subst hab
      have hnot : (a, v) ∉ r := fun hm => by
        have := (cells_sorted hrest).2 a (List.mem_map.2 ⟨_, hm, rfl⟩)
        omega
      simp [cellGet, hnot, eq_comm]
    · simp [cellGet, hab, ih hrest]

/-- The entries that hold a value are as many as the addresses that read it. -/
theorem count_cells (h : cellsFrom d hi 0 m = true) {v : α} (hv : v ≠ d) :
    (m.filter (fun c => decide (c.2 = v))).length = ((List.range hi).filter (fun p => decide (cellGet d m p = v))).length := by
  have hkeys : (m.filter (fun c => decide (c.2 = v))).map Prod.fst = (List.range hi).filter (fun p => decide (cellGet d m p = v)) := by
    obtain ⟨hsorted, hrange⟩ := cells_sorted h
    refine sorted_ext (hsorted.sublist (List.filter_sublist.map _)) (List.pairwise_lt_range.filter _) fun a => ?_
    simp only [List.mem_map, List.mem_filter, decide_eq_true_eq, List.mem_range]
    constructor
    · rintro ⟨⟨b, w⟩, ⟨hm, rfl⟩, rfl⟩
      exact ⟨(hrange b (List.mem_map.2 ⟨_, hm, rfl⟩)).2, (mem_cells h hv).1 hm⟩
    · rintro ⟨-, hg⟩
      exact ⟨(a, v), ⟨(mem_cells h hv).2 hg, rfl⟩, rfl⟩
  rw [← hkeys, List.length_map]

end Cells

theorem slotCount_eq {d : Directory} (h : cellsFrom .blank 1024 0 d.slotStates = true) {state : SlotState} (hs : state ≠ .blank) :
    slotCount state d = slotsIn state d := count_cells h hs

theorem directorySection_items {s : State} (h : cellsFrom .blank 1024 0 s.dir.slotStates = true) :
    DirectoryItems s (directorySection s) := by
  refine ⟨s.dir.op.cause, s.dir.op.current, s.dir.op.joined, maskOf s.dir.op.eraseSet, maskOf s.dir.locks, fun k => ?_, fun c => ?_,
    ?_, ?_, maskOf_is _, ?_⟩
  · cases s.dir.op <;> simp [DirOp.cause]
  · cases s.dir.op <;> simp [DirOp.current, SectorInHand]
  · rintro e (⟨w, he⟩ | ⟨c, he⟩ | ⟨c, k, m, he⟩ | ⟨c, k, he⟩ | ⟨c, k, w, he⟩)
    all_goals
      rw [he]
      exact ⟨rfl, maskOf_is _⟩
  · rintro (he | he | ⟨w, he⟩ | ⟨l, he⟩)
    all_goals
      rw [he]
      exact ⟨rfl, rfl⟩
  · unfold directorySection
    rw [slotCount_eq h (by simp), slotCount_eq h (by simp), octets2_eq]
    simp only [present_eq, yesNo_eq, List.append_assoc]
    cases s.dir.op.cause with
    | none => rfl
    | some cause =>
      cases cause with
      | commanded => rfl
      | paint => rfl

theorem layoutOctets_eq : layoutOctets = layoutItems := by
  funext l
  cases l with
  | departure key step via platform test =>
    cases platform with
    | none => simp only [layoutOctets, layoutItems, octets2_eq, present_eq, List.append_assoc]; rfl
    | some f => cases f <;> simp only [layoutOctets, layoutItems, octets2_eq, present_eq, List.append_assoc] <;> rfl
  | calling key width mode reduction stops =>
    cases mode <;> cases reduction <;> simp only [layoutOctets, layoutItems, octets2_eq] <;> rfl
  | clock minute => simp only [layoutOctets, layoutItems, octets2_eq, present_eq]; rfl
  | banner width mode => cases mode <;> simp only [layoutOctets, layoutItems, octets2_eq] <;> rfl
  | screen text font => cases text <;> cases font <;> rfl
  | empty => rfl
  | blank => rfl
  | none => rfl

theorem layoutSection_eq (s : State) : layoutSection s = layoutsItems s := by
  have hshown : platformField s = decide (s.settings.filter.length ≠ 1) := by
    unfold platformField
    rw [Bool.eq_iff_iff]
    simp
  unfold layoutSection layoutsItems destinationWidth
  rw [hshown, layoutOctets_eq, octets2_eq]
  simp only [yesNo_eq, List.append_assoc]
  rfl

theorem scrollOctets_eq : scrollOctets = scrollItems := by
  funext sc
  cases sc with
  | still => rfl
  | paused strip wait => simp only [scrollOctets, scrollItems, present_eq, octets2_eq, signed2_eq]; rfl
  | moving strip offset wait => simp only [scrollOctets, scrollItems, present_eq, octets2_eq, signed2_eq]; rfl

theorem slotNumber_eq (slot : Slot) : one (slotNumber slot) = [slotNo slot] := by
  cases slot <;> rfl

/-- What runs, in octets: the busy octet, the slot and the line (R124, R147). -/
def jobOctets (job : Option Job) : List Byte :=
  match job with
  | none => [0, 0, 0]
  | some (.table line _) => [1, 1, 0, 1, byteOf line]
  | some (.callingStep _) => [1, 1, 1, 0]
  | some (.clock _) => [1, 1, 2, 0]
  | some (.bannerCompose _) => [1, 1, 3, 0]
  | some (.bannerStep _) => [1, 1, 3, 0]

theorem jobOctets_eq (job : Option Job) (l : List Byte) :
    one (if job.isSome then 1 else 0) ++ (present (fun j => one (slotNumber j)) (job.map Job.slot) ++
      (present one (job.bind Job.line) ++ l)) = jobOctets job ++ l := by
  cases job with
  | none => rfl
  | some j => cases j <;> rfl

theorem paintSection_items (s : State) : PaintItems s (paintSection s) := by
  refine ⟨maskOf s.paint.dirty, maskOf_is _, ?_⟩
  have hsuspend : one (if s.paint.suspendRequest then 0 else 1) = [if s.paint.suspendRequest = true then 0 else 1] := by
    cases s.paint.suspendRequest <;> rfl
  unfold paintSection
  dsimp only
  rw [hsuspend, scrollOctets_eq, octets2_eq]
  simp only [List.append_assoc]
  rw [jobOctets_eq, slotNumber_eq]
  simp only [present_eq, yesNo_eq]
  cases s.paint.hold with
  | free => rfl
  | held remaining => rfl
  | lapsed => rfl

theorem mem_pendingLines {f : FrameStore} {n : Nat} : n ∈ pendingLines f ↔ ∃ image, f.pending[n]? = some (some image) := by
  simp only [pendingLines, List.mem_filter, List.mem_range, List.getD_eq_getElem?_getD]
  constructor
  · rintro ⟨hn, hp⟩
    rw [List.getElem?_eq_getElem hn] at hp ⊢
    obtain ⟨image, hi⟩ := Option.isSome_iff_exists.1 hp
    exact ⟨image, congrArg some hi⟩
  · rintro ⟨image, hi⟩
    obtain ⟨hn, -⟩ := List.getElem?_eq_some_iff.1 hi
    exact ⟨hn, by rw [hi]; rfl⟩

theorem frameSection_items (s : State) : FrameItems s (frameSection s) := by
  refine ⟨maskOf (pendingLines s.frame), fun n => (maskOf_is _ n).trans mem_pendingLines, ?_⟩
  unfold frameSection
  cases s.frame.blank <;> cases s.frame.shift <;> rfl

theorem feedSection_eq (s : State) : feedSection s = feedItems s := by
  unfold feedSection feedItems
  rw [octets2_eq]
  simp only [present_eq, List.append_assoc]
  cases s.feed.alignment with
  | hunting span => rfl
  | confirming skip pattern => rfl
  | aligned octet even marks =>
    have hcount : (marks.filter id).length = marks.count true := by
      rw [List.count_eq_length_filter]
      congr 2
      funext b
      cases b <;> rfl
    show _ ++ (one (marks.filter id).length ++ _) = _
    rw [hcount]
    rfl

theorem messageSection_eq (s : State) : messageSection s = messageItems s := by
  unfold messageSection messageItems
  rw [octets2_eq]
  simp only [yesNo_eq, List.append_assoc]
  cases s.unpacker.state <;> rfl

theorem settingsSection_eq (s : State) : settingsSection s = settingsItems s := by
  unfold settingsSection settingsItems
  dsimp only
  rw [octets2_eq, textOctets_eq]
  simp only [yesNo_eq, List.append_assoc]
  rfl

/-- The content of READ BOARD is R185's. -/
theorem boardContent_is {s : State} (h : cellsFrom .blank 1024 0 s.dir.slotStates = true) : BoardContentIs s (boardContent s) := by
  refine ⟨directorySection s, paintSection s, frameSection s, directorySection_items h, paintSection_items s, frameSection_items s, ?_⟩
  unfold boardContent
  rw [timeSection_eq, tableSection_eq, layoutSection_eq, feedSection_eq, messageSection_eq, settingsSection_eq]
  rfl

end Sys2Proof.Machine

/-! O56. The return line: framing, the return overhead record, and results sent octet by octet. -/

namespace Sys2Proof.Machine

/-! ### The codes of the states -/

theorem codesAsGiven : CodesAsGiven := by
  refine ⟨⟨rfl, rfl, rfl, rfl⟩, ⟨rfl, rfl, ?_⟩, ⟨rfl, rfl, rfl, rfl, rfl, rfl⟩, ⟨rfl, rfl, rfl, rfl⟩, ?_⟩
  · exact ⟨fun _ => rfl, fun _ => rfl, fun _ _ => rfl, fun _ _ => rfl, fun _ _ _ _ => rfl, fun _ _ _ => rfl, fun _ _ _ _ => rfl⟩
  · exact ⟨fun _ => rfl, fun _ _ => rfl, fun _ _ _ => rfl⟩

theorem alignmentCode_le (a : Alignment) : alignmentCode a ≤ 2 := by
  cases a <;> simp [alignmentCode]

theorem boardCode_le (b : BoardState) : boardCode b ≤ 5 := by
  cases b <;> simp [boardCode]

theorem dirOpCode_le (op : DirOp) : dirOpCode op ≤ 8 := by
  cases op <;> simp [dirOpCode]

/-! ### The return overhead record -/

theorem octet1_toNat {n : Nat} (h : n < 256) : (octet1 n).toNat = n := by
  simp only [octet1, BitVec.toNat_ofNat]
  omega

/-- A number built of a two-bit code and four flags, bit by bit. -/
theorem condition_bits {code : Nat} (h : code ≤ 2) (p f m l : Bool) :
    (octet1 (code + 4 * p.toNat + 8 * f.toNat + 16 * m.toNat + 32 * l.toNat)).toNat % 4 = code ∧
      (∀ i, (octet1 (code + 4 * p.toNat + 8 * f.toNat + 16 * m.toNat + 32 * l.toNat)).getLsbD i =
        (decide (i < 8) && decide ((code + 4 * p.toNat + 8 * f.toNat + 16 * m.toNat + 32 * l.toNat) / 2 ^ i % 2 = 1))) := by
  have hp := p.toNat_le
  have hf := f.toNat_le
  have hm := m.toNat_le
  have hl := l.toNat_le
  refine ⟨by rw [octet1_toNat (by omega)]; omega, fun i => ?_⟩
  rw [octet1, BitVec.getLsbD_ofNat, Nat.testBit_eq_decide_div_mod_eq]

theorem decide_toNat (b : Bool) : decide (b.toNat = 1) = b := by cases b <;> rfl

/-- The condition octet's flags (R172, R178). -/
theorem conditionOctet_is (s : State) :
    (conditionOctet s).toNat % 4 = alignmentCode s.feed.alignment ∧ (conditionOctet s).getLsbD 2 = s.feed.position.isSome ∧
      ((conditionOctet s).getLsbD 3 = true ↔ s.time.freshness = .lapsed) ∧
      ((conditionOctet s).getLsbD 4 = true ↔ alignmentCode s.feed.alignment ≠ 2) ∧
      (conditionOctet s).getLsbD 5 = s.results.lost ∧ (conditionOctet s).getLsbD 6 = false ∧
      (conditionOctet s).getLsbD 7 = false := by
  have hle := alignmentCode_le s.feed.alignment
  obtain ⟨hcode, hbits⟩ := condition_bits hle s.feed.position.isSome (decide (s.time.freshness = .lapsed))
    (decide (alignmentCode s.feed.alignment ≠ 2)) s.results.lost
  rw [← decide_eq_true_iff (p := s.time.freshness = .lapsed), ← decide_eq_true_iff (p := alignmentCode s.feed.alignment ≠ 2)]
  unfold conditionOctet
  dsimp only
  generalize alignmentCode s.feed.alignment = code at *
  generalize s.feed.position.isSome = p at *
  generalize decide (s.time.freshness = .lapsed) = f at *
  generalize decide (code ≠ 2) = m at *
  generalize s.results.lost = l at *
  have hp := p.toNat_le
  have hf := f.toNat_le
  have hm := m.toNat_le
  have hl := l.toNat_le
  have hbit (i : Nat) (b : Bool) (hi : i < 8)
      (hb : (code + 4 * p.toNat + 8 * f.toNat + 16 * m.toNat + 32 * l.toNat) / 2 ^ i % 2 = b.toNat) :
      (octet1 (code + 4 * p.toNat + 8 * f.toNat + 16 * m.toNat + 32 * l.toNat)).getLsbD i = b := by
    rw [hbits, hb, decide_toNat, decide_eq_true hi, Bool.true_and]
  refine ⟨hcode, hbit 2 p (by omega) (by omega), ?_, ?_, hbit 5 l (by omega) (by omega), hbit 6 false (by omega) ?_,
    hbit 7 false (by omega) ?_⟩
  · rw [hbit 3 f (by omega) (by omega)]
  · rw [hbit 4 m (by omega) (by omega)]
  · show _ = 0
    omega
  · show _ = 0
    omega

theorem checkOctet_sum (a b c d : Byte) :
    (a.toNat + b.toNat + c.toNat + d.toNat + (checkOctet [a, b, c, d]).toNat) % 256 = 0 := by
  have ha := a.isLt
  have hb := b.isLt
  have hc := c.isLt
  have hd := d.isLt
  show (_ + (0 - (0 + a + b + c + d) : Byte).toNat) % 256 = 0
  simp only [BitVec.toNat_sub, BitVec.toNat_add, BitVec.ofNat_eq_ofNat, BitVec.toNat_ofNat]
  omega

/-- The five octets of the return overhead record (R172, R178). -/
theorem returnRecord_is (s : State) : ∃ a b c d e : Byte, returnRecord s = [a, b, c, d, e] ∧ a = conditionOctet s ∧
    (a.toNat + b.toNat + c.toNat + d.toNat + e.toNat) % 256 = 0 ∧ b.toNat = boardCode s.board ∧
    c.toNat = 16 - s.results.queue.length ∧ d.toNat = dirOpCode s.dir.op := by
  have hb := boardCode_le s.board
  have hd := dirOpCode_le s.dir.op
  refine ⟨_, _, _, _, _, rfl, rfl, checkOctet_sum _ _ _ _, octet1_toNat (by omega), octet1_toNat ?_, octet1_toNat (by omega)⟩
  show 16 - s.results.queue.length < 256
  omega

/-! ### Records of results -/

/-- The record of a result with no content is R178's. -/
theorem resultRecord_decided (kind tag : Byte) (outcome detail : Nat) :
    resultRecord kind tag outcome detail [] = decidedRecord kind tag outcome detail := by
  unfold resultRecord decidedRecord
  rw [octets2_eq]
  unfold crcOctets
  rw [octets2_eq]
  rfl

/-- The record of a DONE read is R178's. -/
theorem resultRecord_done (kind tag : Byte) (content : List Byte) :
    resultRecord kind tag 0 0 content = doneRecord kind tag content := rfl

theorem entryRecord_marker (s : State) (e : Entry) : (entryRecord s e).headD 0 = 0xC3 ∧
    0xC3 :: (entryRecord s e).drop 1 = entryRecord s e := by
  cases e with
  | result kind tag outcome detail => exact ⟨rfl, rfl⟩
  | read tag object => exact ⟨rfl, rfl⟩

/-! ### An octet slot -/

/-- The return line after a slot. -/
theorem returnSlot_eq (s : State) : returnSlot s = s.withResults (returnSlot s).results := by
  unfold returnSlot sendOverhead sendPayload
  dsimp only
  repeat' split
  all_goals rfl

theorem withResults_sameBut (v : ResultSender) (s : State) : SameBut [.results] s (s.withResults v) := by
  intro p hp
  cases p <;> simp_all [Part.same]

theorem returnSlot_framed (s : State) : FramedAtRest [.results] s (settle (returnSlot s)) := by
  rw [returnSlot_eq]
  exact framedAtRest_settle (withResults_sameBut _ s) (by decide)

/-- What sending an octet leaves: the octet on the line, the counters stepped on, all else as it was (R171). -/
theorem send_is (b : Byte) (r : ResultSender) :
    (send b r).line = some b ∧ (send b r).queue = r.queue ∧ (send b r).record = r.record ∧ (send b r).lost = r.lost ∧
      (send b r).overhead = r.overhead := by
  unfold send stepReturn
  split <;> exact ⟨rfl, rfl, rfl, rfl, rfl⟩

theorem send_counters (b : Byte) (r : ResultSender) :
    (r.octet = 31 → (send b r).octet = 0 ∧ (send b r).frame = if r.frame = 5 then 0 else r.frame + 1) ∧
      (r.octet ≠ 31 → (send b r).octet = r.octet + 1 ∧ (send b r).frame = r.frame) := by
  unfold send stepReturn
  dsimp only
  split
  · next h => exact ⟨fun _ => ⟨rfl, rfl⟩, fun hn => absurd h hn⟩
  · next h => exact ⟨fun hn => absurd hn h, fun _ => ⟨rfl, rfl⟩⟩

section
variable {s : State}

theorem returnSlot_pattern (h : s.results.octet = 0) :
    (returnSlot s).results = send (patternOf (s.results.frame % 2 == 0)) s.results := by
  unfold returnSlot
  dsimp only
  rw [if_pos h]
  rfl

theorem returnSlot_marker (h : s.results.octet = 1) (hf : s.results.frame = 0) :
    (returnSlot s).results = send 0xA5 s.results := by
  unfold returnSlot sendOverhead
  dsimp only
  rw [if_neg (by omega), if_pos h, if_pos hf]
  rfl

theorem returnSlot_captured (h : s.results.octet = 1) (hf : s.results.frame = 1) : (returnSlot s).results =
    send ((returnRecord s).headD 0) { s.results with overhead := returnRecord s, lost := false } := by
  unfold returnSlot sendOverhead
  dsimp only
  rw [if_neg (by omega), if_pos h, if_neg (by omega), if_pos hf]
  rfl

theorem returnSlot_overhead (h : s.results.octet = 1) (hf : 2 ≤ s.results.frame) :
    (returnSlot s).results = send (s.results.overhead.getD (s.results.frame - 1) 0) s.results := by
  unfold returnSlot sendOverhead
  dsimp only
  rw [if_neg (by omega), if_pos h, if_neg (by omega), if_neg (by omega)]
  rfl

theorem returnSlot_payload (h : 2 ≤ s.results.octet) : returnSlot s = sendPayload s := by
  unfold returnSlot
  dsimp only
  rw [if_neg (by omega), if_neg (by omega)]

theorem sendPayload_next {b : Byte} {rest : List Byte} (h : s.results.record = b :: rest) :
    (sendPayload s).results = send b { s.results with record := rest } := by
  unfold sendPayload
  simp only [h]
  rfl

theorem sendPayload_fill (h : s.results.record = []) (hq : s.results.queue = []) :
    (sendPayload s).results = send 0 s.results := by
  unfold sendPayload
  simp only [h, hq]
  rfl

theorem sendPayload_captured {e : Entry} {rest : List Entry} (h : s.results.record = []) (hq : s.results.queue = e :: rest) :
    (sendPayload s).results = send 0xC3 { s.results with
      queue := rest, record := (entryRecord (s.withResults { s.results with queue := rest }) e).drop 1 } := by
  obtain ⟨hhead, -⟩ := entryRecord_marker (s.withResults { s.results with queue := rest }) e
  rw [← hhead]
  unfold sendPayload
  simp only [h, hq]
  rfl

/-- Every slot sends one octet of a sender whose counters stand where they stood; only the capture of the overhead record
changes that record. -/
theorem returnSlot_sends (s : State) : ∃ b r, (returnSlot s).results = send b r ∧ r.octet = s.results.octet ∧
    r.frame = s.results.frame ∧ ((s.results.octet ≠ 1 ∨ s.results.frame ≠ 1) → r.overhead = s.results.overhead) := by
  by_cases h0 : s.results.octet = 0
  · exact ⟨_, _, returnSlot_pattern h0, rfl, rfl, fun _ => rfl⟩
  by_cases h1 : s.results.octet = 1
  · by_cases hf0 : s.results.frame = 0
    · exact ⟨_, _, returnSlot_marker h1 hf0, rfl, rfl, fun _ => rfl⟩
    by_cases hf1 : s.results.frame = 1
    · exact ⟨_, _, returnSlot_captured h1 hf1, rfl, rfl, fun hn => by omega⟩
    · exact ⟨_, _, returnSlot_overhead h1 (by omega), rfl, rfl, fun _ => rfl⟩
  rw [returnSlot_payload (by omega)]
  cases hr : s.results.record with
  | cons b rest => exact ⟨_, _, sendPayload_next hr, rfl, rfl, fun _ => rfl⟩
  | nil =>
    cases hq : s.results.queue with
    | nil => exact ⟨_, _, sendPayload_fill hr hq, rfl, rfl, fun _ => rfl⟩
    | cons e rest => exact ⟨_, _, sendPayload_captured hr hq, rfl, rfl, fun _ => rfl⟩

end

/-! ### The places of the frame -/

/-- The record of a read as its capture decides it (R27, R28, R90, R185). -/
theorem readRecord_is {s : State} {tag : Byte} {object : ReadObject} {rest : List Entry} :
    (∀ key, object = .service key → findRecord key s.table.slots = none →
      entryRecord (s.withResults { s.results with queue := rest }) (.read tag object) = decidedRecord 0x20 tag 3 0) ∧
    (∀ key r, object = .service key → findRecord key s.table.slots = some r → ∃ content, ServiceContentIs s r content ∧
      entryRecord (s.withResults { s.results with queue := rest }) (.read tag object) = doneRecord 0x20 tag content) ∧
    (∀ place, object = .place place → ∃ content, PlaceContentIs s place content ∧
      entryRecord (s.withResults { s.results with queue := rest }) (.read tag object) = doneRecord 0x21 tag content) ∧
    (object = .board → s.dir.wf = true →
      ∃ content, BoardContentIs (s.withResults { s.results with queue := rest }) content ∧
        entryRecord (s.withResults { s.results with queue := rest }) (.read tag object) = doneRecord 0x22 tag content) := by
  refine ⟨?_, ?_, ?_, ?_⟩
  · rintro key rfl hr
    have hout : readOutcome (s.withResults { s.results with queue := rest }) (.service key) = (3, []) := by
      simp only [readOutcome, State.withResults_table, hr]
      rfl
    unfold entryRecord
    dsimp only
    rw [hout]
    exact resultRecord_decided 0x20 tag 3 0
  · rintro key r rfl hr
    refine ⟨serviceContent s r, serviceContent_is s r, ?_⟩
    have hout : readOutcome (s.withResults { s.results with queue := rest }) (.service key) = (0, serviceContent s r) := by
      simp only [readOutcome, State.withResults_table, hr]
      rfl
    unfold entryRecord
    dsimp only
    rw [hout]
    exact resultRecord_done 0x20 tag _
  · rintro place rfl
    exact ⟨placeContent s place, placeContent_is s place, resultRecord_done 0x21 tag _⟩
  · rintro rfl hwf
    have hcan : cellsFrom .blank 1024 0 s.dir.slotStates = true := by
      unfold Directory.wf at hwf
      simp only [Bool.and_eq_true] at hwf
      exact hwf.1.2
    exact ⟨_, boardContent_is (s := s.withResults { s.results with queue := rest }) hcan, resultRecord_done 0x22 tag _⟩

/-- Settles O56. -/
theorem returnOctetSent : Obligations.ReturnOctetSent := by
  refine ⟨codesAsGiven, fun s hrun => ⟨_, congrArg Host.Outcome.next (event_of_running hrun returnSlot), returnSlot_framed s, ?_⟩⟩
  obtain ⟨b, r, hsend, hoctet, hframe, hover⟩ := returnSlot_sends s
  obtain ⟨hlast, hstep⟩ := send_counters b r
  rw [settle_results]
  refine ⟨fun hn => ?_, fun h31 => ?_, fun h31 => ?_, fun h0 => ?_, fun h1 => ?_, fun h2 => ?_⟩
  · obtain ⟨-, -, -, -, ho⟩ := send_is b r
    rw [hsend, ho, hover hn]
  · rw [hsend, ← hframe]
    exact hlast (hoctet.trans h31)
  · rw [hsend, ← hframe, ← hoctet]
    exact hstep (hoctet ▸ h31)
  · obtain ⟨hline, hqueue, hrecord, hlost, -⟩ := send_is (patternOf (s.results.frame % 2 == 0)) s.results
    rw [returnSlot_pattern h0, hline, hqueue, hrecord, hlost]
    refine ⟨congrArg some ?_, rfl, rfl, rfl⟩
    unfold patternOf
    simp only [beq_iff_eq]
    rfl
  · have hrest (v : Byte) (q : ResultSender) (hq : q.queue = s.results.queue) (hr : q.record = s.results.record)
        (he : (returnSlot s).results = send v q) :
        (returnSlot s).results.queue = s.results.queue ∧ (returnSlot s).results.record = s.results.record := by
      obtain ⟨-, hqueue, hrecord, -, -⟩ := send_is v q
      rw [he]
      exact ⟨hqueue.trans hq, hrecord.trans hr⟩
    by_cases hf0 : s.results.frame = 0
    · have he := returnSlot_marker h1 hf0
      obtain ⟨hline, -, -, hlost, -⟩ := send_is 0xA5 s.results
      obtain ⟨hq, hr⟩ := hrest _ _ rfl rfl he
      refine ⟨hq, hr, fun _ => by rw [he]; exact ⟨hline, hlost⟩, fun hf => by omega, fun v hf => by omega⟩
    by_cases hf1 : s.results.frame = 1
    · have he := returnSlot_captured h1 hf1
      obtain ⟨hline, -, -, hlost, ho⟩ :=
        send_is ((returnRecord s).headD 0) { s.results with overhead := returnRecord s, lost := false }
      obtain ⟨hq, hr⟩ := hrest _ { s.results with overhead := returnRecord s, lost := false } rfl rfl he
      refine ⟨hq, hr, fun hf => by omega, fun _ => ?_, fun v hf => by omega⟩
      obtain ⟨a, b', c, d, e, hrec, ha, hsum, hboard, hfree, hop⟩ := returnRecord_is s
      obtain ⟨hcode, hposition, hlapsed, haligned, hl, h6, h7⟩ := conditionOctet_is s
      rw [he, hline, hlost, ho, hrec]
      subst ha
      exact ⟨rfl, _, b', c, d, e, rfl, rfl, hsum, hboard, hfree, hop, hcode, hposition, hlapsed, haligned, hl, h6, h7⟩
    · have he := returnSlot_overhead h1 (by omega)
      obtain ⟨hline, -, -, hlost, -⟩ := send_is (s.results.overhead.getD (s.results.frame - 1) 0) s.results
      obtain ⟨hq, hr⟩ := hrest _ _ rfl rfl he
      refine ⟨hq, hr, fun hf => by omega, fun hf => by omega, fun v _ hv => ?_⟩
      rw [he, hline, hlost, List.getD_eq_getElem?_getD, hv]
      exact ⟨rfl, rfl⟩
  · rw [returnSlot_payload h2] at hsend ⊢
    cases hrec : s.results.record with
    | cons v rest =>
      obtain ⟨hline, hqueue, hrecord, hlost, -⟩ := send_is v { s.results with record := rest }
      rw [sendPayload_next hrec, hline, hqueue, hrecord, hlost]
      refine ⟨rfl, fun v' rest' hv => ?_, fun hn => by simp at hn, fun _ _ _ _ _ hn => by simp at hn, fun _ _ _ hn => by simp at hn⟩
      obtain ⟨rfl, rfl⟩ := List.cons.inj hv
      exact ⟨rfl, rfl, rfl⟩
    | nil =>
      cases hqueue : s.results.queue with
      | nil =>
        obtain ⟨hline, hq, hr, hlost, -⟩ := send_is 0 s.results
        rw [sendPayload_fill hrec hqueue, hline, hq, hr, hlost]
        exact ⟨rfl, fun _ _ hn => by simp at hn, fun _ _ => ⟨rfl, hrec, hqueue⟩, fun _ _ _ _ _ _ hn => by simp at hn,
          fun _ _ _ _ hn => by simp at hn⟩
      | cons e rest =>
        obtain ⟨-, hmarker⟩ := entryRecord_marker (s.withResults { s.results with queue := rest }) e
        obtain ⟨hline, hq, hr, hlost, -⟩ := send_is 0xC3 { s.results with
          queue := rest, record := (entryRecord (s.withResults { s.results with queue := rest }) e).drop 1 }
        rw [sendPayload_captured hrec hqueue, hline, hq, hr, hlost, hmarker]
        refine ⟨rfl, fun _ _ hn => by simp at hn, fun _ hn => by simp at hn, fun kind tag outcome detail rest' _ hn => ?_,
          fun tag object rest' _ hn => ?_⟩
        · obtain ⟨rfl, rfl⟩ := List.cons.inj hn
          exact ⟨rfl, rfl, resultRecord_decided kind tag outcome detail⟩
        · obtain ⟨rfl, rfl⟩ := List.cons.inj hn
          exact ⟨rfl, rfl, readRecord_is⟩

end Sys2Proof.Machine

/-! SUPPORT. A step as a chain of the model's own operations. `Change` keeps the table and the directory apart from all the rest;
here every operation is named, so that an invariant of any other block can be proved operation by operation. -/

namespace Sys2Proof.Machine

/-! ### Operations -/

/-- One operation of the running part: a message accepted by its owner, a result entered, octets held by the unpacker or the Feed
Receiver, the arbiter's decision, an overhead record judged, or an event of a block's own, before the decision that ends it. -/
inductive Operation (s : State) : State → Prop
  | accept (h : Header) (m : Message) : Operation s (acceptMessage h m s)
  | answer (kind : Byte) (h : Header) (o d : Nat) : Operation s (answer kind h o d s)
  | answerRead (kind : Byte) (h : Header) (o d : Nat) : Operation s (answerRead kind h o d s)
  | settle : Operation s (settle s)
  | unpack (v : Unpacker) : Operation s (s.withUnpacker v)
  | receive (v : FeedReceiver) (hheld : v.held = s.feed.held) (hstation : v.station = s.feed.station) :
      Operation s (s.withFeed v)
  | record (o1 o2 o3 o4 o5 : Octet) : Operation s (judgeRecord o1 o2 o3 o4 o5 s)
  | minute : Operation s (advanceMinute s)
  | lapse : Operation s (lapseFeed s)
  | expiry : Operation s (windowExpiry s)
  | written (verified : Bool) : Operation s (completeWrite verified s)
  | gathered : Operation s (gatherExpiry s)
  | erased : Operation s (sectorDone s)
  | suspended : Operation s (suspensionDone s)
  | locked : Operation s (lockDone s)
  | scanned : Operation s (scanDone s)
  | holdLapse : Operation s (lapseHold s)
  | bannerExpiry : Operation s (expireBanner s)
  | tableJob : Operation s (tableJobDone s)
  | clockJob : Operation s (clockJobDone s)
  | callingStep : Operation s (callingStepDone s)
  | bannerCompose : Operation s (bannerComposeDone s)
  | bannerStep : Operation s (bannerStepDone s)
  | pause (which : ScrollId) : Operation s (endPause which s)
  | stepDue (which : ScrollId) : Operation s (stepDue which s)
  | refresh : Operation s (refreshFrame s)
  | latch : Operation s (latchShift s)
  | returnSlot : Operation s (returnSlot s)
  | key : Operation s (keyDebounced s)

/-- A chain of operations. -/
def Operations : State → State → Prop := Relation.ReflTransGen Operation

theorem Operations.refl (s : State) : Operations s s := Relation.ReflTransGen.refl

theorem Operations.trans {s t u : State} (h : Operations s t) (g : Operations t u) : Operations s u :=
  Relation.ReflTransGen.trans h g

theorem Operation.chain {s t : State} (h : Operation s t) : Operations s t := .single h

theorem operations_settle {s t : State} (h : Operations s t) : Operations s (settle t) := h.trans (.single .settle)

/-- A choice between two chains. -/
theorem operations_ite {p : Prop} [Decidable p] {s t u : State} (ht : Operations s t) (hu : Operations s u) :
    Operations s (if p then t else u) := by
  split
  · exact ht
  · exact hu

/-- A property every operation keeps, every chain keeps. -/
theorem Operations.keep {P : State → Prop} (hP : ∀ s t, Operation s t → P s → P t) {s t : State} (h : Operations s t)
    (hs : P s) : P t := by
  induction h with
  | refl => exact hs
  | tail _ hc ih => exact hP _ _ hc ih

/-! ### The message stream -/

theorem dispatch_operations (kind : Byte) (h : Header) (params : List Byte) (s : State) :
    Operations s (dispatch kind h params s) := by
  unfold dispatch
  split
  · exact (Operation.answer _ _ _ _).chain
  · split
    · exact operations_ite (Operation.answerRead _ _ _ _).chain (Operation.answer _ _ _ _).chain
    · exact operations_settle (Operation.accept _ _).chain

theorem dispatchOctets_operations (octets : List Byte) (s : State) : Operations s (dispatchOctets octets s) := by
  unfold dispatchOctets
  split
  · exact dispatch_operations _ _ _ _
  · exact .refl s

theorem withUnpack_operations (st : UnpackState) (buffer : List Octet) (s : State) :
    Operations s (withUnpack st buffer s) := (Operation.unpack _).chain

theorem countBad_operations (s : State) : Operations s (countBad s) := (Operation.unpack _).chain

theorem takeOctet_operations (o : Octet) (s : State) : Operations s (takeOctet o s).state := by
  unfold takeOctet
  dsimp only
  split
  · split
    · exact withUnpack_operations _ _ _
    · exact .refl s
  · split
    · exact withUnpack_operations _ _ _
    · exact countBad_operations s
  · split_ifs
    · exact countBad_operations s
    · exact withUnpack_operations _ _ _
    · exact (withUnpack_operations _ _ s).trans (dispatchOctets_operations _ _)
    · exact countBad_operations s

theorem takeOctets_operations (octets : List Octet) (s : State) : Operations s (takeOctets octets s).1 := by
  induction octets generalizing s with
  | nil => exact .refl s
  | cons o rest ih =>
    have h := takeOctet_operations o s
    unfold takeOctets
    split
    · next u hu => rw [hu] at h; exact h.trans (ih u)
    · next u held hu => rw [hu] at h; exact h

theorem examine_operations (fuel : Nat) (octets : List Octet) (s : State) : Operations s (examine fuel octets s) := by
  induction fuel generalizing octets s with
  | zero => exact .refl s
  | succ n ih =>
    have h := takeOctets_operations octets s
    unfold examine
    split
    · next u hu => rw [hu] at h; exact h
    · next u again hu => rw [hu] at h; exact h.trans (ih again u)

/-! ### The feed line -/

/-- What the Feed Receiver holds of its line and its octets, its station state and its hold standing. -/
theorem withFeed_operations {v : FeedReceiver} {s : State} (hheld : v.held = s.feed.held := by rfl)
    (hstation : v.station = s.feed.station := by rfl) : Operations s (s.withFeed v) :=
  (Operation.receive v hheld hstation).chain

theorem withAlignment_operations (a : Alignment) (s : State) : Operations s (withAlignment a s) :=
  withFeed_operations

theorem seekMarker_station (o : Octet) (even : Bool) (f : FeedReceiver) :
    (seekMarker o even f).held = f.held ∧ (seekMarker o even f).station = f.station := by
  unfold seekMarker
  dsimp only
  split_ifs <;> exact ⟨rfl, rfl⟩

theorem overheadOctet_operations (o : Octet) (even : Bool) (s : State) : Operations s (overheadOctet o even s) := by
  unfold overheadOctet
  split
  · obtain ⟨hheld, hstation⟩ := seekMarker_station o even s.feed
    exact withFeed_operations hheld hstation
  · refine operations_ite (operations_ite withFeed_operations withFeed_operations) ?_
    refine Operations.trans withFeed_operations (operations_ite ?_ (.refl _))
    unfold judgeGathered
    split
    · exact (Operation.record _ _ _ _ _).chain
    · exact .refl _

theorem breakStream_operations (s : State) : Operations s (breakStream s) := by
  unfold breakStream
  split
  · exact .refl s
  · exact countBad_operations s
  · exact countBad_operations s

theorem loseAlignment_operations (s : State) : Operations s (loseAlignment s) :=
  Operations.trans withFeed_operations (breakStream_operations _)

theorem receiveOctet_operations (o : Octet) (s : State) : Operations s (receiveOctet o s) := by
  unfold receiveOctet
  split
  · exact operations_ite (withAlignment_operations _ _) (withAlignment_operations _ _)
  · exact operations_ite withFeed_operations (withAlignment_operations _ _)
  · exact withAlignment_operations _ _
  · refine operations_ite (operations_ite (withAlignment_operations _ _) (loseAlignment_operations _)) ?_
    exact (withAlignment_operations _ s).trans
      (operations_ite (overheadOctet_operations _ _ _) (examine_operations _ _ _))

/-! ### Every command -/

/-- What a command does: nothing, a chain of operations of the running part, a change of the staff key input, a hard reset, or, in
reset, the release. -/
inductive Executed (s : State) : State → Prop
  | idle : Executed s s
  | chain {t : State} (hr : Running s) (h : Operations s t) : Executed s t
  | keyInput (closed : Bool) : Executed s (keyInputChange closed s)
  | reset : Executed s (hardReset s)
  | release (geo1 geo0 : Bool) (hr : s.phase = .inReset) : Executed s (releaseReset geo1 geo0 s)

theorem event_executed {f : State → State} {s : State} (h : Operations s (f s)) : Executed s (event f s) := by
  unfold event
  split
  · next hp => exact .chain hp (operations_settle h)
  · exact .idle

theorem feedEvent_executed {f : State → State} {s : State} (h : Operations s (f s)) : Executed s (feedEvent f s) := by
  unfold feedEvent
  split
  · next hp => exact .chain hp (operations_ite (.refl s) (operations_settle h))
  · exact .idle

theorem releaseReset_executed (geo1 geo0 : Bool) (s : State) : Executed s (releaseReset geo1 geo0 s) := by
  cases hp : s.phase with
  | inReset => exact .release geo1 geo0 hp
  | running =>
    have hsame : releaseReset geo1 geo0 s = s := by unfold releaseReset; rw [hp]
    rw [hsame]
    exact .idle

theorem exec_executed {i : Instr} {s t : State} (h : exec i s = .next t) : Executed s t := by
  have next {u : State} (hu : Executed s u) (e : (Host.Outcome.next u : Host.Outcome State Fault Refusal) = .next t) :
      Executed s t := by
    cases e; exact hu
  have own {f : State → State} (hf : Operation s (f s)) : Executed s (event f s) := event_executed hf.chain
  have heard {m : Message} {hd : Header} : Executed s (feedEvent (acceptMessage hd m) s) :=
    feedEvent_executed (Operation.accept hd m).chain
  cases i with
  | feedOctet o =>
    exact next (feedEvent_executed (f := takeOnLine o)
      (Operations.trans withFeed_operations (receiveOctet_operations o (s.withFeed { s.feed with started := true })))) h
  | missingOctet => exact next (feedEvent_executed (operations_ite (receiveOctet_operations _ _) (.refl s))) h
  | overheadRecord o1 o2 o3 o4 o5 => exact next (feedEvent_executed (Operation.record _ _ _ _ _).chain) h
  | minuteEvent => exact next (own .minute) h
  | feedLapsed => exact next (own .lapse) h
  | postService hd f => exact next (heard (m := .post f)) h
  | amendService hd f => exact next (heard (m := .amend f)) h
  | retireService hd key => exact next (heard (m := .retire key)) h
  | clearBoard hd => exact next (heard (m := .clearBoard)) h
  | readService hd key => exact next (heard (m := .readService key)) h
  | sweepWindowExpiry => exact next (own .expiry) h
  | writePlace hd f => exact next (heard (m := .writePlace f)) h
  | writeComplete v => exact next (own (.written v)) h
  | eraseSector hd sector => exact next (heard (m := .eraseSector sector)) h
  | gatherWindowExpiry => exact next (own .gathered) h
  | sectorEraseComplete => exact next (own .erased) h
  | suspendErase hd => exact next (heard (m := .suspendErase)) h
  | suspensionComplete => exact next (own .suspended) h
  | resumeErase hd => exact next (heard (m := .resumeErase)) h
  | lockSectors hd sectors => exact next (heard (m := .lockSectors sectors)) h
  | freeSectors hd sectors => exact next (heard (m := .freeSectors sectors)) h
  | lockChangeComplete => exact next (own .locked) h
  | readPlace hd place => exact next (heard (m := .readPlace place)) h
  | scanEnd => exact next (own .scanned) h
  | holdBoard hd => exact next (heard (m := .holdBoard)) h
  | releaseBoard hd => exact next (heard (m := .releaseBoard)) h
  | holdLapse => exact next (own .holdLapse) h
  | setBanner hd f => exact next (heard (m := .setBanner f)) h
  | clearBanner hd => exact next (heard (m := .clearBanner)) h
  | bannerExpiry => exact next (own .bannerExpiry) h
  | setBoard hd f => exact next (heard (m := .setBoard f)) h
  | restart => exact next (feedEvent_executed (Operation.accept { tag := 0, reply := false } .restart).chain) h
  | readBoard hd => exact next (heard (m := .readBoard)) h
  | tableJobComplete => exact next (own .tableJob) h
  | clockJobComplete => exact next (own .clockJob) h
  | callingStepComplete => exact next (own .callingStep) h
  | bannerComposeComplete => exact next (own .bannerCompose) h
  | bannerStepComplete => exact next (own .bannerStep) h
  | scrollPauseExpiry which => exact next (own (.pause which)) h
  | scrollStepDue which => exact next (own (.stepDue which)) h
  | refresh => exact next (own .refresh) h
  | shiftComplete => exact next (own .latch) h
  | returnOctet => exact next (own .returnSlot) h
  | staffKeyInputChange closed => exact next (.keyInput closed) h
  | staffKeyDebounced => exact next (own .key) h
  | powerOn => exact next .reset h
  | resetLineAssert => exact next .reset h
  | resetRelease geo1 geo0 => exact next (releaseReset_executed geo1 geo0 s) h

/-! ### Every step -/

theorem fireWhen_operations {due : State → Bool} {f : State → State} {s : State} (h : Operation s (f s)) :
    Operations s (fireWhen due f s) :=
  operations_ite (operations_settle h.chain) (.refl s)

/-- What the millisecond does once the freshness timer has had its turn is a chain of operations (log entry 7). -/
theorem tick_operations (s : State) :
    Operations (fireWhen freshnessDue lapseFeed (runClock (advanceTimers s))) (tick s) := by
  unfold tick
  refine Operations.trans ?_ (fireWhen_operations .key)
  refine Operations.trans ?_ (fireWhen_operations .refresh)
  refine Operations.trans ?_ (fireWhen_operations .latch)
  refine Operations.trans ?_ (fireWhen_operations (.stepDue .banner))
  refine Operations.trans ?_ (fireWhen_operations (.stepDue .calling))
  refine Operations.trans ?_ (fireWhen_operations (.pause .banner))
  refine Operations.trans ?_ (fireWhen_operations (.pause .calling))
  refine Operations.trans ?_ (fireWhen_operations .bannerExpiry)
  refine Operations.trans ?_ (fireWhen_operations .holdLapse)
  refine Operations.trans ?_ (fireWhen_operations .locked)
  refine Operations.trans ?_ (fireWhen_operations .erased)
  exact Operations.trans (fireWhen_operations .expiry) (fireWhen_operations .gathered)

/-- What a step does: what a command does on the queue's rest, or a tick. -/
theorem step_executed {s t : State} (h : step s = .next t) :
    (∃ rest, Executed (s.withPending rest) t) ∨ (s.phase = .inReset ∧ t = s) ∨ (Running s ∧ t = tick s) := by
  unfold step at h
  split at h
  · cases h
    unfold idle
    split
    · next hp => exact .inr (.inr ⟨hp, rfl⟩)
    · next hp => exact .inr (.inl ⟨hp, rfl⟩)
  · next rest _ => exact .inl ⟨rest, exec_executed h⟩

end Sys2Proof.Machine

/-! SUPPORT. The blocks each operation touches: the table's within the table, the directory's within the directory, the Paint
Engine's within the engine and its images. -/

namespace Sys2Proof.Machine

/-! ### Frames over one set of parts -/

theorem SameBut.within {l : List Part} {s t u : State} (h : SameBut l s t) (g : SameBut l t u) : SameBut l s u :=
  (h.trans g).mono fun _ hp => (List.mem_append.1 hp).elim id id

/-- A choice between two changes of the same parts. -/
theorem sameBut_ite {l : List Part} {p : Prop} [Decidable p] {s t u : State} (ht : SameBut l s t) (hu : SameBut l s u) :
    SameBut l s (if p then t else u) := by
  split
  · exact ht
  · exact hu

/-- The Service Table, with the counts it keeps and the lines it marks. -/
def slotParts : List Part := [.slots, .order, .window, .counts, .dirty]

/-- The Service Table with the results it answers. -/
def recordParts : List Part := .results :: slotParts

/-- The Place Directory, with the results it answers. -/
def directoryParts : List Part :=
  [.results, .storage, .eraseMarks, .lockFlags, .slotStates, .counts, .locks, .dirOp]

/-- The Paint Engine but for its layout records, the Frame Store, and the results they answer. -/
def engineParts : List Part :=
  [.results, .dirty, .requests, .arbiter, .hold, .banner, .callingScroll, .bannerScroll, .suspendRequest, .bankReport, .frame]

theorem withDir_sameBut (v : Directory) (s : State) : SameBut directoryParts s (s.withDir v) := by
  intro p hp
  cases p <;> simp_all [Part.same, directoryParts]

/-- A change of the Paint Engine that leaves the layout records. -/
theorem withPaint_sameBut {v : Paint} {s : State} (h : v.layouts = s.paint.layouts := by rfl) :
    SameBut engineParts s (s.withPaint v) := by
  intro p hp
  cases p <;> simp_all [Part.same, engineParts]

theorem withFrame_sameBut (v : FrameStore) (s : State) : SameBut [.frame] s (s.withFrame v) := by
  intro p hp
  cases p <;> simp_all [Part.same]

theorem withKey_sameBut (v : StaffKey) (s : State) : SameBut [.key] s (s.withKey v) := by
  intro p hp
  cases p <;> simp_all [Part.same]

theorem answerAll_sameBut (kind : Byte) (hs : List Header) (o d : Nat) (s : State) :
    SameBut [.results] s (answerAll kind hs o d s) := by
  intro p hp
  cases p <;> simp_all [Part.same]

theorem answerRead_sameBut (kind : Byte) (h : Header) (o d : Nat) (s : State) :
    SameBut [.results] s (answerRead kind h o d s) := by
  intro p hp
  cases p <;> simp_all [Part.same]

/-- An answer within a set of parts that holds the results. -/
theorem SameBut.answer {l : List Part} {s t : State} (h : SameBut l s t) (hl : .results ∈ l) (kind : Byte) (hd : Header)
    (o d : Nat) : SameBut l s (Sys2Proof.Machine.answer kind hd o d t) :=
  h.within ((answer_sameBut kind hd o d t).mono (by simpa using hl))

theorem SameBut.answerAll {l : List Part} {s t : State} (h : SameBut l s t) (hl : .results ∈ l) (kind : Byte)
    (hs : List Header) (o d : Nat) : SameBut l s (Sys2Proof.Machine.answerAll kind hs o d t) :=
  h.within ((answerAll_sameBut kind hs o d t).mono (by simpa using hl))

/-! ### The Service Table -/

theorem answer_tableSame (kind : Byte) (h : Header) (o d : Nat) (s : State) : SameBut recordParts s (answer kind h o d s) :=
  (SameBut.refl _ s).answer (by decide) _ _ _ _

theorem sweepAtZero_sameBut (left : Bool) (s : State) : SameBut slotParts s (sweepAtZero left s) :=
  sameBut_ite ((sweep_sameBut s).mono (by decide)) (.refl _ s)

theorem postCreate_sameBut (h : Header) (f : PostFields) (s : State) : SameBut recordParts s (postCreate h f s) := by
  have created (l : List (Option Record)) (u : State) : SameBut recordParts u (createRecord (postRecord f) l u) :=
    (createRecord_sameBut _ l u).mono (by decide)
  have swept : SameBut recordParts s (sweep s) := (sweep_sameBut s).mono (by decide)
  unfold postCreate
  dsimp only
  split
  · exact (created _ s).answer (by decide) _ _ _ _
  · split
    · exact answer_tableSame _ _ _ _ s
    · split
      · exact (swept.within (created _ _)).answer (by decide) _ _ _ _
      · exact swept.answer (by decide) _ _ _ _

theorem acceptPost_sameBut (h : Header) (f : PostFields) (s : State) : SameBut recordParts s (acceptPost h f s) := by
  unfold acceptPost
  dsimp only
  refine sameBut_ite ?_ (answer_tableSame _ _ _ _ s)
  split
  · split
    · exact answer_tableSame _ _ _ _ s
    · exact postCreate_sameBut h f s
  · split
    · exact answer_tableSame _ _ _ _ s
    · exact answer_tableSame _ _ _ _ s
    · split
      · exact answer_tableSame _ _ _ _ s
      · exact ((replaceRecord_sameBut _ _ s).mono (by decide) : SameBut recordParts s _).answer (by decide) _ _ _ _

theorem acceptAmend_sameBut (h : Header) (f : AmendFields) (s : State) : SameBut recordParts s (acceptAmend h f s) := by
  unfold acceptAmend
  refine sameBut_ite ?_ (answer_tableSame _ _ _ _ s)
  split
  · exact answer_tableSame _ _ _ _ s
  · split
    · exact answer_tableSame _ _ _ _ s
    · split
      · exact answer_tableSame _ _ _ _ s
      · exact answer_tableSame _ _ _ _ s
      · refine sameBut_ite ?_ (answer_tableSame _ _ _ _ s)
        exact ((retable_sameBut _ s).mono (by decide) : SameBut recordParts s _).answer (by decide) _ _ _ _

theorem retireRecord_sameBut (key : Nat) (s : State) : SameBut slotParts s (retireRecord key s) :=
  (((touchWindow_sameBut s).trans (retable_sameBut _ _)).mono (by decide)).within (sweepAtZero_sameBut _ _)

theorem acceptRetire_sameBut (h : Header) (key : Nat) (s : State) : SameBut recordParts s (acceptRetire h key s) := by
  unfold acceptRetire
  refine sameBut_ite ?_ (answer_tableSame _ _ _ _ s)
  split
  · exact answer_tableSame _ _ _ _ s
  · have hretire : SameBut recordParts s (retireRecord key s) := (retireRecord_sameBut key s).mono (by decide)
    exact (sameBut_ite hretire (.refl _ s)).answer (by decide) _ _ _ _

theorem windowExpiry_sameBut (s : State) : SameBut slotParts s (windowExpiry s) := by
  unfold windowExpiry
  split
  · exact .refl _ s
  · exact (sweep_sameBut s).mono (by decide)

/-- A pass over the records touches only the table and its marks. -/
theorem pass_sameBut (left : Bool) (l : List (Option Record)) (s : State) :
    SameBut slotParts s (retable l (touchIf left s)) :=
  ((touchIf_sameBut left s).trans (retable_sameBut l _)).mono (by decide)

theorem rollover_sameBut (s : State) : SameBut slotParts s (rollover s).1 := by
  rw [rollover_eq]
  exact pass_sameBut _ _ s

theorem ageTable_sameBut (s : State) : SameBut slotParts s (ageTable s).1 := by
  rw [ageTable_eq]
  exact pass_sameBut _ _ s

theorem passOrigin_sameBut (p : OriginPassage) (s : State) : SameBut (.time :: slotParts) s (passOrigin p s).1 := by
  have timed (v : Timekeeper) : SameBut (.time :: slotParts) s (s.withTime v) := (withTime_sameBut v s).mono (by decide)
  cases p with
  | no => exact .refl _ s
  | backward => exact timed _
  | forward =>
    unfold passOrigin
    dsimp only
    split
    · exact timed _
    · exact (rollover_sameBut s).mono fun q hq => List.mem_cons_of_mem _ hq

theorem repaintRequests_sameBut (s : State) : SameBut [.dirty, .requests] s (repaintRequests s) := by
  intro q hq
  cases q <;> simp_all [Part.same, repaintRequests]

/-- The stages of an event touch the time, the table, the marks and the clock request, whatever the table holds. -/
theorem timeStages_framed (p : OriginPassage) (s : State) :
    SameBut (.time :: .requests :: slotParts) s (timeStages p s) := by
  have wide {u v : State} (h : SameBut slotParts u v) : SameBut (.time :: .requests :: slotParts) u v :=
    h.mono fun q hq => List.mem_cons_of_mem _ (List.mem_cons_of_mem _ hq)
  have hpass : SameBut (.time :: .requests :: slotParts) s (passOrigin p s).1 := (passOrigin_sameBut p s).mono (by decide)
  have hnow : SameBut (.time :: .requests :: slotParts) _ (recomputeNow (passOrigin p s).1) :=
    (withTime_sameBut _ (passOrigin p s).1).mono (by decide)
  rw [timeStages_eq]
  refine SameBut.within ?_ ((repaintRequests_sameBut _).mono (by decide))
  exact (((hpass.within hnow).within (wide (ageTable_sameBut _))).within (wide (sweepAtZero_sameBut _ _)))

/-! ### The Place Directory -/

theorem answer_directorySame (kind : Byte) (h : Header) (o d : Nat) (s : State) :
    SameBut directoryParts s (answer kind h o d s) :=
  (SameBut.refl _ s).answer (by decide) _ _ _ _

theorem withOp_sameBut (op : DirOp) (s : State) : SameBut directoryParts s (withOp op s) := withDir_sameBut _ s

theorem abandonGather_sameBut (s : State) : SameBut directoryParts s (abandonGather s) := by
  unfold abandonGather
  split
  · exact (withOp_sameBut _ s).answerAll (by decide) _ _ _ _
  · exact .refl _ s

theorem tryWrite_sameBut (h : Header) (f : WriteFields) (op : DirOp) (s : State) :
    SameBut directoryParts s (tryWrite h f op s) :=
  sameBut_ite (answer_directorySame _ _ _ _ s) (sameBut_ite (answer_directorySame _ _ _ _ s) (withDir_sameBut _ s))

theorem acceptWrite_sameBut (h : Header) (f : WriteFields) (s : State) : SameBut directoryParts s (acceptWrite h f s) := by
  unfold acceptWrite
  refine sameBut_ite ?_ (answer_directorySame _ _ _ _ s)
  dsimp only
  split
  · exact tryWrite_sameBut _ _ _ _
  · exact (abandonGather_sameBut s).within (tryWrite_sameBut _ _ _ _)
  · exact sameBut_ite (answer_directorySame _ _ _ _ s) (tryWrite_sameBut _ _ _ _)
  all_goals exact answer_directorySame _ _ _ _ s

theorem deferredResume_sameBut (s : State) : SameBut directoryParts s (deferredResume s) := by
  unfold deferredResume
  split
  · exact sameBut_ite (.refl _ s) (withDir_sameBut _ s)
  · exact .refl _ s

theorem endWrite_sameBut (verified : Bool) (w : WriteRun) (op : DirOp) (s : State) :
    SameBut directoryParts s (endWrite verified w op s) :=
  (withDir_sameBut _ s).answer (by decide) _ _ _ _

theorem completeWrite_sameBut (verified : Bool) (s : State) : SameBut directoryParts s (completeWrite verified s) := by
  unfold completeWrite
  split
  · exact endWrite_sameBut _ _ _ _
  · exact (endWrite_sameBut _ _ _ _).within (deferredResume_sameBut _)
  · exact .refl _ s

theorem tryErase_sameBut (h : Header) (sector : Nat) (e : EraseJob) (window : Nat) (s : State) :
    SameBut directoryParts s (tryErase h sector e window s) := by
  have busy (o d : Nat) : SameBut directoryParts s (answer kindErase h o d s) := answer_directorySame _ _ _ _ s
  refine sameBut_ite (busy _ _) ?_
  split
  · exact busy _ _
  · exact sameBut_ite (busy _ _) (sameBut_ite (withOp_sameBut _ s) (withOp_sameBut _ s))

theorem acceptErase_sameBut (h : Header) (sector : Nat) (s : State) : SameBut directoryParts s (acceptErase h sector s) := by
  unfold acceptErase
  refine sameBut_ite ?_ (answer_directorySame _ _ _ _ s)
  split
  · exact tryErase_sameBut _ _ _ _ _
  · exact tryErase_sameBut _ _ _ _ _
  all_goals exact answer_directorySame _ _ _ _ s

theorem enterErasing_sameBut (e : EraseJob) (c : Current) (s : State) : SameBut directoryParts s (enterErasing e c s) :=
  sameBut_ite (withDir_sameBut _ s) (withDir_sameBut _ s)

theorem gatherExpiry_sameBut (s : State) : SameBut directoryParts s (gatherExpiry s) := by
  unfold gatherExpiry
  split
  · exact enterErasing_sameBut _ _ s
  · exact .refl _ s

theorem sectorDone_sameBut (s : State) : SameBut directoryParts s (sectorDone s) := by
  unfold sectorDone
  split
  · exact sameBut_ite ((withDir_sameBut _ s).answerAll (by decide) _ _ _ _) (withDir_sameBut _ s)
  · refine sameBut_ite (sameBut_ite ?_ (withDir_sameBut _ s)) (.refl _ s)
    exact ((withDir_sameBut _ s).answerAll (by decide) _ _ _ _).answerAll (by decide) _ _ _ _
  · exact .refl _ s

theorem acceptSuspend_sameBut (h : Header) (s : State) : SameBut directoryParts s (acceptSuspend h s) := by
  have suspended (op : DirOp) (o d : Nat) : SameBut directoryParts s (answer kindSuspend h o d (withOp op s)) :=
    (withOp_sameBut op s).answer (by decide) _ _ _ _
  unfold acceptSuspend
  split
  · exact withOp_sameBut _ s
  · exact withOp_sameBut _ s
  · exact suspended _ _ _
  · exact suspended _ _ _
  · exact suspended _ _ _
  all_goals exact answer_directorySame _ _ _ _ s

theorem suspensionDone_sameBut (s : State) : SameBut directoryParts s (suspensionDone s) := by
  unfold suspensionDone
  split
  · exact ((withOp_sameBut _ s).answerAll (by decide) _ _ _ _).within (deferredResume_sameBut _)
  · exact .refl _ s

theorem acceptResume_sameBut (h : Header) (s : State) : SameBut directoryParts s (acceptResume h s) := by
  unfold acceptResume
  split
  · exact (enterErasing_sameBut _ _ s).answer (by decide) _ _ _ _
  all_goals exact answer_directorySame _ _ _ _ s

theorem tryLock_sameBut (kind : Byte) (h : Header) (target : List Nat) (s : State) :
    SameBut directoryParts s (tryLock kind h target s) := by
  unfold tryLock
  split
  · exact withOp_sameBut _ s
  · exact (abandonGather_sameBut s).within (withOp_sameBut _ _)
  all_goals exact answer_directorySame _ _ _ _ s

theorem acceptLock_sameBut (h : Header) (sectors : Byte) (s : State) : SameBut directoryParts s (acceptLock h sectors s) :=
  sameBut_ite (answer_directorySame _ _ _ _ s) (tryLock_sameBut _ _ _ s)

theorem acceptFree_sameBut (h : Header) (sectors : Byte) (s : State) : SameBut directoryParts s (acceptFree h sectors s) :=
  sameBut_ite (answer_directorySame _ _ _ _ s) (sameBut_ite (tryLock_sameBut _ _ _ s) (answer_directorySame _ _ _ _ s))

theorem lockDone_sameBut (s : State) : SameBut directoryParts s (lockDone s) := by
  unfold lockDone
  split
  · exact (withDir_sameBut _ s).answer (by decide) _ _ _ _
  · exact .refl _ s

/-- The end of the scan touches the directory, and the Feed Receiver's hold and alignment alone of the receiver (R94, R163). -/
theorem scanDone_sameBut (s : State) : SameBut (.feed :: directoryParts) s (scanDone s) ∧
    (scanDone s).feed.station = s.feed.station := by
  unfold scanDone
  split
  · dsimp only
    split
    · exact ⟨((withDir_sameBut _ s).trans (withFeed_sameBut _ _)).mono (by decide), rfl⟩
    · exact ⟨(withDir_sameBut _ s).mono (by decide), rfl⟩
  · exact ⟨.refl _ s, rfl⟩

/-! ### The Paint Engine and the Frame Store -/

theorem answer_engineSame (kind : Byte) (h : Header) (o d : Nat) (s : State) :
    SameBut engineParts s (answer kind h o d s) :=
  (SameBut.refl _ s).answer (by decide) _ _ _ _

theorem stopScroll_sameBut (which : ScrollId) (s : State) : SameBut engineParts s (stopScroll which s) := by
  cases which <;> exact withPaint_sameBut

theorem revokeJob_sameBut (s : State) : SameBut engineParts s (revokeJob s) := by
  obtain ⟨job, heq, -⟩ := revokeJob_eq s
  rw [heq]
  exact withPaint_sameBut

theorem acceptHold_sameBut (h : Header) (s : State) : SameBut engineParts s (acceptHold h s) :=
  SameBut.answer withPaint_sameBut (by decide) _ _ _ _

theorem acceptRelease_sameBut (h : Header) (s : State) : SameBut engineParts s (acceptRelease h s) := by
  unfold acceptRelease
  dsimp only
  split
  · exact SameBut.answer withPaint_sameBut (by decide) _ _ _ _
  · exact SameBut.answer withPaint_sameBut (by decide) _ _ _ _
  · exact answer_engineSame _ _ _ _ s

theorem lapseHold_sameBut (s : State) : SameBut engineParts s (lapseHold s) := by
  unfold lapseHold
  split
  · exact withPaint_sameBut
  · exact .refl _ s
  · exact .refl _ s

theorem yieldCallingLine_sameBut (before : Option Nat) (s : State) : SameBut engineParts s (yieldCallingLine before s) :=
  sameBut_ite (stopScroll_sameBut _ s) (.refl _ s)

theorem acceptSetBanner_sameBut (h : Header) (f : BannerFields) (s : State) :
    SameBut engineParts s (acceptSetBanner h f s) := by
  unfold acceptSetBanner
  refine sameBut_ite ?_ (answer_engineSame _ _ _ _ s)
  refine SameBut.answer ?_ (by decide) _ _ _ _
  refine SameBut.within ?_ (revokeJob_sameBut _)
  refine SameBut.within ?_ (yieldCallingLine_sameBut _ _)
  exact ((withPaint_sameBut (s := s)).within (stopScroll_sameBut _ _)).within withPaint_sameBut

theorem removeBanner_sameBut (s : State) : SameBut engineParts s (removeBanner s) := by
  refine SameBut.within ?_ (revokeJob_sameBut _)
  refine SameBut.within ?_ (sameBut_ite withPaint_sameBut (.refl _ _))
  refine SameBut.within ?_ (sameBut_ite withPaint_sameBut (.refl _ _))
  exact (withPaint_sameBut (s := s)).within (stopScroll_sameBut _ _)

theorem acceptClearBanner_sameBut (h : Header) (s : State) : SameBut engineParts s (acceptClearBanner h s) := by
  unfold acceptClearBanner
  split
  · exact (removeBanner_sameBut s).answer (by decide) _ _ _ _
  · exact answer_engineSame _ _ _ _ s

theorem expireBanner_sameBut (s : State) : SameBut engineParts s (expireBanner s) := by
  unfold expireBanner
  split
  · exact sameBut_ite (removeBanner_sameBut s) (.refl _ s)
  · exact .refl _ s

theorem withScroll_sameBut (which : ScrollId) (sc : Scroll) (s : State) : SameBut engineParts s (withScroll which sc s) := by
  cases which <;> exact withPaint_sameBut

theorem clearStep_sameBut (which : ScrollId) (s : State) : SameBut engineParts s (clearStep which s) := by
  cases which <;> exact withPaint_sameBut

theorem endPause_sameBut (which : ScrollId) (s : State) : SameBut engineParts s (endPause which s) := by
  unfold endPause
  split
  · exact withScroll_sameBut _ _ s
  · exact .refl _ s
  · exact .refl _ s

theorem stepDue_sameBut (which : ScrollId) (s : State) : SameBut engineParts s (stepDue which s) := by
  have raised (sc : Scroll) : SameBut engineParts s (match which with
      | .calling => (withScroll which sc s).withPaint { (withScroll which sc s).paint with callingStep := true }
      | .banner => (withScroll which sc s).withPaint { (withScroll which sc s).paint with bannerStep := true }) := by
    cases which <;> exact (withScroll_sameBut _ sc s).within withPaint_sameBut
  unfold stepDue
  split
  · exact raised _
  · exact .refl _ s
  · exact .refl _ s

theorem freeEngine_sameBut (s : State) : SameBut engineParts s (freeEngine s) := withPaint_sameBut

theorem placeImage_sameBut (line : Nat) (image : List Column) (s : State) :
    SameBut engineParts s (placeImage line image s) := (withFrame_sameBut _ s).mono (by decide)

/-- A compose placed touches its layout record beside the engine and the images. -/
theorem placeComposed_sameBut (line : Nat) (c : Composed) (s : State) :
    SameBut (.layouts :: engineParts) s (placeComposed line c s) := by
  intro p hp
  cases p <;> simp_all [Part.same, engineParts, placeComposed, placeImage]

theorem restartScroll_sameBut (which : ScrollId) (strip : Option (List Column)) (s : State) :
    SameBut engineParts s (restartScroll which strip s) := by
  unfold restartScroll
  split
  · exact withScroll_sameBut _ _ s
  · exact stopScroll_sameBut _ s

theorem landStep_sameBut (which : ScrollId) (r : StepResult) (s : State) : SameBut engineParts s (landStep which r s) := by
  unfold landStep
  split
  · exact sameBut_ite ((clearStep_sameBut which s).within (withScroll_sameBut which _ _)) (withScroll_sameBut which _ s)
  · exact .refl _ s
  · exact .refl _ s

/-- A frame over the engine is one over the engine and the layout records. -/
theorem SameBut.laidOut {s t : State} (h : SameBut engineParts s t) : SameBut (.layouts :: engineParts) s t :=
  h.mono fun _ hp => List.mem_cons_of_mem _ hp

theorem tableJobDone_sameBut (s : State) : SameBut (.layouts :: engineParts) s (tableJobDone s) := by
  unfold tableJobDone
  split
  · refine (freeEngine_sameBut s).laidOut.within ?_
    split
    · refine sameBut_ite ?_ (.refl _ _)
      refine (placeComposed_sameBut _ _ _).within (sameBut_ite ?_ (.refl _ _))
      exact ((clearStep_sameBut _ _).within (restartScroll_sameBut _ _ _)).laidOut
    · exact .refl _ _
  · exact .refl _ s

theorem clockJobDone_sameBut (s : State) : SameBut (.layouts :: engineParts) s (clockJobDone s) := by
  unfold clockJobDone
  split
  · refine (freeEngine_sameBut s).laidOut.within ?_
    split
    · exact sameBut_ite (placeComposed_sameBut _ _ _) (.refl _ _)
    · exact .refl _ _
  · exact .refl _ s

theorem callingStepDone_sameBut (s : State) : SameBut engineParts s (callingStepDone s) := by
  unfold callingStepDone
  split
  · refine (freeEngine_sameBut s).within ?_
    split
    · exact sameBut_ite ((landStep_sameBut _ _ _).within (placeImage_sameBut _ _ _)) (.refl _ _)
    · exact .refl _ _
  · exact .refl _ s

theorem bannerComposeDone_sameBut (s : State) : SameBut (.layouts :: engineParts) s (bannerComposeDone s) := by
  unfold bannerComposeDone
  split
  · refine (freeEngine_sameBut s).laidOut.within ?_
    split
    · exact sameBut_ite ((placeComposed_sameBut _ _ _).within (restartScroll_sameBut _ _ _).laidOut) (.refl _ _)
    · exact .refl _ _
  · exact .refl _ s

theorem bannerStepDone_sameBut (s : State) : SameBut engineParts s (bannerStepDone s) := by
  unfold bannerStepDone
  split
  · refine (freeEngine_sameBut s).within ?_
    split
    · exact sameBut_ite ((landStep_sameBut _ _ _).within (placeImage_sameBut _ _ _)) (.refl _ _)
    · exact .refl _ _
  · exact .refl _ s

theorem refreshFrame_sameBut (s : State) : SameBut [.frame] s (refreshFrame s) := withFrame_sameBut _ s

theorem latchShift_sameBut (s : State) : SameBut [.frame] s (latchShift s) := by
  unfold latchShift
  split
  · exact withFrame_sameBut _ s
  · exact .refl _ s

theorem keyDebounced_sameBut (s : State) : SameBut [.key] s (keyDebounced s) := by
  unfold keyDebounced
  split
  · exact withKey_sameBut _ s
  · exact .refl _ s

/-! ### The board state -/

/-- What a turn of the board state touches. -/
def boardParts : List Part := [.time, .board, .dirty, .requests, .arbiter, .callingScroll, .bannerScroll]

theorem selectBoard_sameBut (s : State) : SameBut boardParts s (selectBoard s) := by
  unfold selectBoard
  refine sameBut_ite (.refl _ s) ?_
  obtain ⟨job, heq, -⟩ := applyBoard_paint (deriveBoard s.feed.station s.time.freshness s.time.valid) s
  rw [heq]
  intro p hp
  cases p <;> simp_all [Part.same, boardPaint, boardParts]

theorem lapseFeed_sameBut (s : State) : SameBut boardParts s (lapseFeed s) := by
  unfold lapseFeed
  split
  · exact .refl _ s
  · exact ((withTime_sameBut _ s).mono (by decide)).within (selectBoard_sameBut _)

theorem advanceMinute_sameBut (s : State) : SameBut (.time :: .requests :: slotParts) s (advanceMinute s) :=
  sameBut_ite (((withTime_sameBut _ s).mono (by decide)).within (timeStages_framed _ _)) (.refl _ s)

end Sys2Proof.Machine

/-! SUPPORT and O7. The Timekeeper in order and the board state as its inputs give it: every operation keeps both, and the millisecond
that a tick adds to the freshness timer is taken back by the feed's own lapse. -/

namespace Sys2Proof.Machine

/-! ### The invariant by its parts -/

/-- The Timekeeper in order under settings, the freshness timer of a FRESH feed less than `slack` ms past its limit (R31, R32, R35,
R37, R49). -/
structure TimeOK (slack : Nat) (set : Settings) (t : Timekeeper) : Prop where
  range : t.minute < 1440 ∧ t.second < 60 ∧ t.milli < 1000
  now_lt : t.now < 1440
  count : t.inconsistent ≤ 2
  stands : t.valid = false → t.minute = 0 ∧ t.second = 0 ∧ t.milli = 0 ∧ t.rollHold = false
  now_is : t.valid = true → t.now = if t.rollHold then 0 else serviceMinute set.origin t.minute
  fresh : t.freshness = .fresh → t.freshTimer < 60000 * set.holdover + slack
  lapsed : t.freshness = .lapsed → t.freshTimer ≤ 3600000

/-- The board state is the one its inputs give (R154). -/
def BoardFollows (s : State) : Prop := s.board = deriveBoard s.feed.station s.time.freshness s.time.valid

theorem timeInv_iff (s : State) : TimeInv s ↔
    SettingsOK s.settings ∧ TimeOK 0 s.settings s.time ∧ (s.phase = .running → BoardFollows s) := by
  unfold TimeInv
  constructor
  · rintro ⟨hset, hrange, hnow, hcount, hstands, hnowis, hfresh, hboard⟩
    refine ⟨hset, ⟨hrange, hnow, hcount, hstands, hnowis, fun hf => ?_, fun hf => ?_⟩, hboard⟩
    · rw [hf] at hfresh; exact hfresh
    · rw [hf] at hfresh; exact hfresh
  · rintro ⟨hset, ⟨hrange, hnow, hcount, hstands, hnowis, hfresh, hlapsed⟩, hboard⟩
    refine ⟨hset, hrange, hnow, hcount, hstands, hnowis, ?_, hboard⟩
    split
    · next hf => exact hfresh hf
    · next hf => exact hlapsed hf

/-- The invariant of the running part, with `slack` ms to spare on the freshness timer. -/
def TimeKept (slack : Nat) (s : State) : Prop :=
  SettingsOK s.settings ∧ TimeOK slack s.settings s.time ∧ BoardFollows s

theorem TimeKept.timeInv {s : State} (h : TimeKept 0 s) : TimeInv s :=
  (timeInv_iff s).2 ⟨h.1, h.2.1, fun _ => h.2.2⟩

/-! ### What leaves the time and the board state -/

/-- The settings, the time, the board state and its inputs stand. -/
def TimeStands (s t : State) : Prop :=
  t.settings = s.settings ∧ t.time = s.time ∧ t.board = s.board ∧ t.feed.station = s.feed.station

theorem SameBut.timeStands {l : List Part} {s t : State} (h : SameBut l s t)
    (hl : .settings ∉ l ∧ .time ∉ l ∧ .board ∉ l ∧ .feed ∉ l := by decide) : TimeStands s t := by
  obtain ⟨hset, htime, hboard, hfeed⟩ := hl
  exact ⟨h _ hset, h _ htime, h _ hboard, congrArg FeedReceiver.station (h _ hfeed)⟩

theorem TimeKept.of_stands {slack : Nat} {s t : State} (h : TimeKept slack s) (hst : TimeStands s t) : TimeKept slack t := by
  obtain ⟨hset, htime, hboard, hstation⟩ := hst
  unfold TimeKept BoardFollows
  rw [hset, htime, hboard, hstation]
  exact h

theorem settle_timeStands (s : State) : TimeStands s (settle s) := (settle_sameBut s).timeStands

/-! ### The stages of a minute event or step event -/

theorem passOrigin_time (p : OriginPassage) (s : State) :
    (passOrigin p s).1.time = { s.time with rollHold := heldAfter p s.time.rollHold } := by
  cases p with
  | no => rfl
  | backward => rfl
  | forward =>
    unfold passOrigin
    dsimp only
    cases hh : s.time.rollHold with
    | true => rfl
    | false =>
      have htime : (rollover s).1.time = s.time := rollover_sameBut s .time (by decide)
      rw [if_neg (by simp), htime, heldAfter, ← hh]

/-- The stages leave of the time only the rollover hold and "now", whatever the table holds (R37, R39, R40). -/
theorem timeStages_timeIs (p : OriginPassage) (s : State) :
    (timeStages p s).time = { s.time with rollHold := heldAfter p s.time.rollHold, now := nowAfter p s } := by
  have hset : (passOrigin p s).1.settings = s.settings := passOrigin_sameBut p s .settings (by decide)
  have hage : (agedTable p s).time = (recomputeNow (passOrigin p s).1).time :=
    ageTable_sameBut (recomputeNow (passOrigin p s).1) .time (by decide)
  have hsweep (left : Bool) : (sweepAtZero left (agedTable p s)).time = (agedTable p s).time :=
    sweepAtZero_sameBut left _ .time (by decide)
  rw [timeStages_eq, repaintRequests_sameBut _ .time (by decide), hsweep, hage, recomputeNow, State.withTime_time,
    passOrigin_time, hset]
  rfl

theorem serviceMinute_lt (origin minute : Nat) : serviceMinute origin minute < 1440 := Nat.mod_lt _ (by decide)

theorem nowAfter_lt (p : OriginPassage) (s : State) : nowAfter p s < 1440 := by
  unfold nowAfter
  split
  · decide
  · exact serviceMinute_lt _ _

/-- A time in order but for "now", as it is when the stages of an event begin: valid, its minute just set (R39, R40). -/
structure TimeSet (slack : Nat) (set : Settings) (t : Timekeeper) : Prop where
  range : t.minute < 1440 ∧ t.second < 60 ∧ t.milli < 1000
  count : t.inconsistent ≤ 2
  valid : t.valid = true
  fresh : t.freshness = .fresh → t.freshTimer < 60000 * set.holdover + slack
  lapsed : t.freshness = .lapsed → t.freshTimer ≤ 3600000

/-- The stages leave the board state as its inputs give it. -/
theorem timeStages_follows (p : OriginPassage) {s : State} (h : BoardFollows s) : BoardFollows (timeStages p s) := by
  have hframe := timeStages_framed p s
  unfold BoardFollows at h ⊢
  rw [hframe .board (by decide), hframe .feed (by decide), timeStages_timeIs]
  exact h

/-- The stages put "now" in order. -/
theorem timeStages_kept {slack : Nat} {s : State} (p : OriginPassage) (hset : SettingsOK s.settings)
    (ht : TimeSet slack s.settings s.time) (hb : BoardFollows s) : TimeKept slack (timeStages p s) := by
  have hsettings : (timeStages p s).settings = s.settings := timeStages_framed p s .settings (by decide)
  obtain ⟨hrange, hcount, hvalid, hfresh, hlapsed⟩ := ht
  refine ⟨hsettings ▸ hset, ?_, timeStages_follows p hb⟩
  rw [hsettings, timeStages_timeIs]
  refine ⟨hrange, nowAfter_lt p s, hcount, fun hv => ?_, fun _ => rfl, hfresh, hlapsed⟩
  exact absurd (hvalid.symm.trans hv) (by decide)

theorem advanceMinute_kept {slack : Nat} {s : State} (h : TimeKept slack s) : TimeKept slack (advanceMinute s) := by
  obtain ⟨hset, ht, hb⟩ := id h
  unfold advanceMinute
  split
  · next hvalid =>
    exact timeStages_kept _ hset
      ⟨⟨Nat.mod_lt _ (by decide), Nat.succ_pos 59, Nat.succ_pos 999⟩, ht.count, hvalid, ht.fresh, ht.lapsed⟩ hb
  · exact h

/-! ### Freshness and the overhead record -/

/-- The Selector's derivation leaves the settings, the time and the Feed Receiver, and the board state as its inputs give it. -/
theorem selectBoard_follows (s : State) : (selectBoard s).settings = s.settings ∧ (selectBoard s).time = s.time ∧
    (selectBoard s).feed = s.feed ∧ BoardFollows (selectBoard s) := by
  obtain ⟨repainted, hrep, -, hboard, htime, hfeed⟩ := selectBoard_repaints s
  refine ⟨hrep.1 .settings (by decide), htime, hfeed, ?_⟩
  unfold BoardFollows
  rw [hboard, htime, hfeed]

theorem selectBoard_kept {slack : Nat} {s : State} (hset : SettingsOK s.settings) (ht : TimeOK slack s.settings s.time) :
    TimeKept slack (selectBoard s) := by
  obtain ⟨hsettings, htime, -, hb⟩ := selectBoard_follows s
  unfold TimeKept
  rw [hsettings, htime]
  exact ⟨hset, ht, hb⟩

theorem TimeOK.freshened {slack : Nat} {set : Settings} {t : Timekeeper} (h : TimeOK slack set t) (hset : SettingsOK set) :
    TimeOK 0 set { t with freshness := .fresh, freshTimer := 0 } := by
  obtain ⟨-, -, -, hholdover, -⟩ := hset
  exact ⟨h.range, h.now_lt, h.count, h.stands, h.now_is, fun _ => by dsimp only; omega, nofun⟩

theorem TimeOK.lapsedAt {slack : Nat} {set : Settings} {t : Timekeeper} (h : TimeOK slack set t) (hset : SettingsOK set) :
    TimeOK 0 set { t with freshness := .lapsed, freshTimer := 60000 * set.holdover } := by
  obtain ⟨-, -, -, hholdover, -⟩ := hset
  exact ⟨h.range, h.now_lt, h.count, h.stands, h.now_is, nofun, fun _ => by dsimp only; omega⟩

theorem refreshFeed_kept {s : State} (h : TimeKept 0 s) : TimeKept 0 (refreshFeed s) := by
  obtain ⟨hset, ht, hb⟩ := h
  unfold refreshFeed
  dsimp only
  split
  · next hf =>
    refine ⟨hset, ht.freshened hset, ?_⟩
    unfold BoardFollows at hb ⊢
    rw [hf] at hb
    exact hb
  · exact selectBoard_kept hset (ht.freshened hset)

/-- The lapse gives back the millisecond of slack (R49). -/
theorem lapseFeed_kept {slack : Nat} {s : State} (h : TimeKept slack s) (hf : s.time.freshness = .fresh) :
    TimeKept 0 (lapseFeed s) := by
  obtain ⟨hset, ht, -⟩ := h
  unfold lapseFeed
  rw [hf]
  exact selectBoard_kept hset (ht.lapsedAt hset)

theorem takeStationTime_kept {minute second : Nat} {s : State} (h : TimeKept 0 s) :
    TimeKept 0 (takeStationTime minute second s) := by
  obtain ⟨hset, ht, hb⟩ := id h
  by_cases husable : minute < 1440 ∧ second < 60
  · obtain ⟨hm, hs⟩ := husable
    have counted {n : Nat} (hn : n ≤ 2) : TimeKept 0 (s.withTime { s.time with inconsistent := n }) :=
      ⟨hset, ⟨ht.range, ht.now_lt, hn, ht.stands, ht.now_is, ht.fresh, ht.lapsed⟩, hb⟩
    have started : TimeSet 0 s.settings (setBoardTime minute second s).time :=
      ⟨⟨hm, hs, Nat.succ_pos 999⟩, Nat.zero_le 2, rfl, ht.fresh, ht.lapsed⟩
    cases hv : s.time.valid with
    | false =>
      obtain ⟨hsettings, htime, -, hb'⟩ := selectBoard_follows (setBoardTime minute second s)
      rw [takeStationTime_first hm hs hv]
      refine timeStages_kept .no (by rw [hsettings]; exact hset) ?_ hb'
      rw [hsettings, htime]
      exact started
    | true =>
      rw [takeStationTime_valid hm hs hv]
      split_ifs
      · exact counted (by decide)
      · exact counted (by omega)
      · refine timeStages_kept _ hset started ?_
        unfold BoardFollows at hb ⊢
        rw [hv] at hb
        exact hb
  · rw [takeStationTime_unusable (by omega)]
    exact h

theorem debounceStation_kept {slack : Nat} {s : State} (code : Byte) (h : TimeKept slack s) :
    TimeKept slack (debounceStation code s) := by
  obtain ⟨hset, ht, -⟩ := id h
  have held (v : FeedReceiver) (hv : v.station = s.feed.station) : TimeKept slack (s.withFeed v) :=
    h.of_stands ⟨rfl, rfl, rfl, hv⟩
  unfold debounceStation
  split
  · exact held _ rfl
  · split
    · split
      · exact held _ rfl
      · exact selectBoard_kept hset ht
    · exact held _ rfl

theorem judgeRecord_kept {s : State} (o1 o2 o3 o4 o5 : Octet) (h : TimeKept 0 s) :
    TimeKept 0 (judgeRecord o1 o2 o3 o4 o5 s) := by
  unfold judgeRecord
  split
  · exact debounceStation_kept _ (takeStationTime_kept (refreshFeed_kept (h.of_stands ⟨rfl, rfl, rfl, rfl⟩)))
  · exact h

/-! ### SET BOARD and RESTART -/

theorem applySettings_kept {new : Settings} {s : State} (hnew : SettingsOK new) (h : TimeKept 0 s) :
    TimeKept 0 (applySettings new s) := by
  obtain ⟨-, ht, hb⟩ := h
  obtain ⟨htime, hsame, hmoved, hlapses, hstays, hboard⟩ := applySettings_time new s
  have hsettings : (applySettings new s).settings = new := by
    obtain ⟨-, -, hs, -⟩ := applySettings_leavesTable new s
    rw [hs, withFilterApplied_settings]
  have hfeed : (applySettings new s).feed.station = s.feed.station := by
    rw [applySettings_eq]
    have hfilter : (withFilterApplied new s).feed = s.feed := by unfold withFilterApplied; split <;> rfl
    have horigin := (withOriginApplied_facts s.settings (withFilterApplied new s)).1 .feed (by decide)
    obtain ⟨-, -, -, -, -, hholdover, -⟩ :=
      withHoldoverApplied_facts s.settings (withOriginApplied s.settings (withFilterApplied new s))
    have hsuspend := withSuspendApplied_sameBut s.settings
      (withHoldoverApplied s.settings (withOriginApplied s.settings (withFilterApplied new s))) .feed (by decide)
    have hfont := (withFontApplied_facts s.settings (withSuspendApplied s.settings
      (withHoldoverApplied s.settings (withOriginApplied s.settings (withFilterApplied new s))))).1 .feed (by decide)
    exact congrArg FeedReceiver.station (hfont.trans (hsuspend.trans (hholdover.trans (horigin.trans hfilter))))
  have hvalid : (applySettings new s).time.valid = s.time.valid := by rw [htime]
  unfold TimeKept BoardFollows
  rw [hsettings, hfeed, hvalid]
  refine ⟨hnew, ?_, hboard hb⟩
  rw [htime]
  have hholdover : 1 ≤ new.holdover ∧ new.holdover ≤ 60 := by
    obtain ⟨-, -, -, hr, -⟩ := hnew
    exact hr
  refine ⟨ht.range, ?_, ht.count, fun hv => ?_, fun hv => ?_, fun hf => ?_, fun hf => ?_⟩
  · by_cases ho : new.origin = s.settings.origin
    · dsimp only
      rw [(hsame ho).1]
      exact ht.now_lt
    · dsimp only
      rw [(hmoved ho).2]
      exact serviceMinute_lt _ _
  · obtain ⟨hm, hs, hms, hroll⟩ := ht.stands hv
    refine ⟨hm, hs, hms, ?_⟩
    by_cases ho : new.origin = s.settings.origin
    · exact (hsame ho).2.trans hroll
    · exact (hmoved ho).1
  · dsimp only
    by_cases ho : new.origin = s.settings.origin
    · rw [(hsame ho).1, (hsame ho).2, ho]
      exact ht.now_is hv
    · rw [(hmoved ho).1, (hmoved ho).2]
      rfl
  · by_cases hl : new.holdover ≠ s.settings.holdover ∧ s.time.freshness = .fresh ∧ 60000 * new.holdover ≤ s.time.freshTimer
    · exact absurd ((hlapses hl).1.symm.trans hf) (by decide)
    · obtain ⟨hfresh, htimer⟩ := hstays hl
      have hf' : s.time.freshness = .fresh := hfresh.symm.trans hf
      have hbelow := ht.fresh hf'
      dsimp only
      rw [htimer]
      by_cases hne : new.holdover = s.settings.holdover
      · rw [hne]
        exact hbelow
      · by_contra hge
        exact hl ⟨hne, hf', by omega⟩
  · dsimp only
    by_cases hl : new.holdover ≠ s.settings.holdover ∧ s.time.freshness = .fresh ∧ 60000 * new.holdover ≤ s.time.freshTimer
    · rw [(hlapses hl).2]
      omega
    · obtain ⟨hfresh, htimer⟩ := hstays hl
      rw [htimer]
      exact ht.lapsed (hfresh.symm.trans hf)

theorem acceptSetBoard_kept {s : State} (hd : Header) (f : BoardFields) (h : TimeKept 0 s) :
    TimeKept 0 (acceptSetBoard hd f s) := by
  have answered {t : State} (ht : TimeKept 0 t) (o d : Nat) : TimeKept 0 (answer kindSetBoard hd o d t) :=
    ht.of_stands (answer_sameBut _ _ _ _ _).timeStands
  unfold acceptSetBoard
  dsimp only
  split_ifs with hf horigin
  · exact answered h _ _
  · exact answered h _ _
  all_goals
    have hf : filterOK (f.filter.getD []) = true := by simpa using hf
    exact answered (applySettings_kept (newSettings_ok hf h.1) h) _ _

/-- The Timekeeper under RESTART, under the default settings (R37, R50, R189). -/
theorem restartedTime_ok {slack : Nat} {set : Settings} {t : Timekeeper} (h : TimeOK slack set t) :
    TimeOK 0 Settings.default (restartedTime t) := by
  have hlimit : 60000 * Settings.default.holdover = 600000 := rfl
  unfold restartedTime
  dsimp only
  split
  · exact ⟨h.range, serviceMinute_lt _ _, Nat.zero_le _, fun hv => ⟨(h.stands hv).1, (h.stands hv).2.1, (h.stands hv).2.2.1, rfl⟩,
      fun _ => rfl, nofun, fun _ => by dsimp only; omega⟩
  · next hno =>
    refine ⟨h.range, serviceMinute_lt _ _, Nat.zero_le _, fun hv => ⟨(h.stands hv).1, (h.stands hv).2.1, (h.stands hv).2.2.1, rfl⟩,
      fun _ => rfl, fun hf => ?_, h.lapsed⟩
    rw [hlimit]
    exact Nat.not_le.1 fun hle => hno ⟨hf, hle⟩

theorem acceptRestart_kept {s : State} (h : TimeKept 0 s) : TimeKept 0 (acceptRestart s) := by
  obtain ⟨-, ht, -⟩ := h
  have hvalid : (restartedTime s.time).valid = s.time.valid := by unfold restartedTime; dsimp only; split <;> rfl
  rw [acceptRestart_whole]
  refine ⟨defaultSettings_ok, restartedTime_ok ht, ?_⟩
  show deriveBoard s.feed.station (restartedTime s.time).freshness s.time.valid = deriveBoard s.feed.station
    (restartedTime s.time).freshness (restartedTime s.time).valid
  rw [hvalid]

/-! ### Every operation -/

theorem acceptMessage_kept {s : State} (hd : Header) (m : Message) (h : TimeKept 0 s) : TimeKept 0 (acceptMessage hd m s) := by
  cases m with
  | post f => exact h.of_stands (acceptPost_sameBut hd f s).timeStands
  | amend f => exact h.of_stands (acceptAmend_sameBut hd f s).timeStands
  | retire key => exact h.of_stands (acceptRetire_sameBut hd key s).timeStands
  | clearBoard => exact h.of_stands (acceptClear_sameBut hd s).timeStands
  | holdBoard => exact h.of_stands (acceptHold_sameBut hd s).timeStands
  | releaseBoard => exact h.of_stands (acceptRelease_sameBut hd s).timeStands
  | setBanner f => exact h.of_stands (acceptSetBanner_sameBut hd f s).timeStands
  | clearBanner => exact h.of_stands (acceptClearBanner_sameBut hd s).timeStands
  | writePlace f => exact h.of_stands (acceptWrite_sameBut hd f s).timeStands
  | eraseSector sector => exact h.of_stands (acceptErase_sameBut hd sector s).timeStands
  | suspendErase => exact h.of_stands (acceptSuspend_sameBut hd s).timeStands
  | resumeErase => exact h.of_stands (acceptResume_sameBut hd s).timeStands
  | lockSectors sectors => exact h.of_stands (acceptLock_sameBut hd sectors s).timeStands
  | freeSectors sectors => exact h.of_stands (acceptFree_sameBut hd sectors s).timeStands
  | readService key =>
    exact h.of_stands (sameBut_ite (enqueueRead_sameBut _ _ s) (answerRead_sameBut _ _ _ _ s)).timeStands
  | readPlace place =>
    exact h.of_stands (sameBut_ite (enqueueRead_sameBut _ _ s) (answerRead_sameBut _ _ _ _ s)).timeStands
  | readBoard => exact h.of_stands (enqueueRead_sameBut _ _ s).timeStands
  | setBoard f => exact acceptSetBoard_kept hd f h
  | restart => exact acceptRestart_kept h

theorem Operation.timeKept {s t : State} (ho : Operation s t) (h : TimeKept 0 s) : TimeKept 0 t := by
  cases ho with
  | accept hd m => exact acceptMessage_kept hd m h
  | answer kind hd o d => exact h.of_stands (answer_sameBut kind hd o d s).timeStands
  | answerRead kind hd o d => exact h.of_stands (answerRead_sameBut kind hd o d s).timeStands
  | settle => exact h.of_stands (settle_timeStands s)
  | unpack v => exact h.of_stands ⟨rfl, rfl, rfl, rfl⟩
  | receive v _ hstation => exact h.of_stands ⟨rfl, rfl, rfl, hstation⟩
  | record o1 o2 o3 o4 o5 => exact judgeRecord_kept o1 o2 o3 o4 o5 h
  | minute => exact advanceMinute_kept h
  | lapse =>
    cases hf : s.time.freshness with
    | fresh => exact lapseFeed_kept h hf
    | lapsed =>
      unfold lapseFeed
      rw [hf]
      exact h
  | expiry => exact h.of_stands (windowExpiry_sameBut s).timeStands
  | written v => exact h.of_stands (completeWrite_sameBut v s).timeStands
  | gathered => exact h.of_stands (gatherExpiry_sameBut s).timeStands
  | erased => exact h.of_stands (sectorDone_sameBut s).timeStands
  | suspended => exact h.of_stands (suspensionDone_sameBut s).timeStands
  | locked => exact h.of_stands (lockDone_sameBut s).timeStands
  | scanned =>
    obtain ⟨hframe, hstation⟩ := scanDone_sameBut s
    exact h.of_stands ⟨hframe .settings (by decide), hframe .time (by decide), hframe .board (by decide), hstation⟩
  | holdLapse => exact h.of_stands (lapseHold_sameBut s).timeStands
  | bannerExpiry => exact h.of_stands (expireBanner_sameBut s).timeStands
  | tableJob => exact h.of_stands (tableJobDone_sameBut s).timeStands
  | clockJob => exact h.of_stands (clockJobDone_sameBut s).timeStands
  | callingStep => exact h.of_stands (callingStepDone_sameBut s).timeStands
  | bannerCompose => exact h.of_stands (bannerComposeDone_sameBut s).timeStands
  | bannerStep => exact h.of_stands (bannerStepDone_sameBut s).timeStands
  | pause which => exact h.of_stands (endPause_sameBut which s).timeStands
  | stepDue which => exact h.of_stands (stepDue_sameBut which s).timeStands
  | refresh => exact h.of_stands (refreshFrame_sameBut s).timeStands
  | latch => exact h.of_stands (latchShift_sameBut s).timeStands
  | returnSlot =>
    rw [returnSlot_eq]
    exact h.of_stands ⟨rfl, rfl, rfl, rfl⟩
  | key => exact h.of_stands (keyDebounced_sameBut s).timeStands

theorem Operations.timeKept {s t : State} (ho : Operations s t) (h : TimeKept 0 s) : TimeKept 0 t :=
  ho.keep (fun _ _ => Operation.timeKept) h

/-! ### The millisecond and the resets -/

/-- The timers take the freshness timer a millisecond on (R49). -/
theorem advanceTimers_kept {s : State} (h : TimeKept 0 s) : TimeKept 1 (advanceTimers s) := by
  obtain ⟨hset, ht, hb⟩ := h
  refine ⟨hset, ⟨ht.range, ht.now_lt, ht.count, ht.stands, ht.now_is, fun hf => ?_, fun hf => ?_⟩, hb⟩
  · have hf : s.time.freshness = .fresh := hf
    have hbelow := ht.fresh hf
    simp only [advanceTimers, State.withKey_time, State.withFrame_time, State.withPaint_time, State.withDir_time,
      State.withTime_time, State.withElapsed_time, hf]
    show s.time.freshTimer + 1 < 60000 * s.settings.holdover + 1
    omega
  · have hf : s.time.freshness = .lapsed := hf
    simpa only [advanceTimers, State.withKey_time, State.withFrame_time, State.withPaint_time, State.withDir_time,
      State.withTime_time, State.withElapsed_time, hf] using ht.lapsed hf

theorem runClock_kept {slack : Nat} {s : State} (h : TimeKept slack s) : TimeKept slack (runClock s) := by
  obtain ⟨hset, ht, hb⟩ := id h
  have running {ms sec : Nat} (hms : ms < 1000) (hsec : sec < 60) (hv : s.time.valid = true) :
      TimeKept slack (s.withTime { s.time with milli := ms, second := sec }) :=
    ⟨hset, ⟨⟨ht.range.1, hsec, hms⟩, ht.now_lt, ht.count, fun hn => absurd (hv.symm.trans hn) (by decide), ht.now_is, ht.fresh,
      ht.lapsed⟩, hb⟩
  unfold runClock
  split
  · next hv =>
    split
    · exact running (by omega) ht.range.2.1 hv
    · split
      · exact running (by decide) (by omega) hv
      · exact (advanceMinute_kept h).of_stands (settle_timeStands _)
  · exact h

/-- The feed's own turn in the millisecond takes the slack back (R49). -/
theorem freshnessTurn_kept {s : State} (h : TimeKept 1 s) : TimeKept 0 (fireWhen freshnessDue lapseFeed s) := by
  unfold fireWhen
  split
  · next hdue =>
    simp only [freshnessDue, Bool.and_eq_true, decide_eq_true_eq] at hdue
    exact (lapseFeed_kept h hdue.1).of_stands (settle_timeStands _)
  · next hdue =>
    obtain ⟨hset, ht, hb⟩ := h
    refine ⟨hset, ⟨ht.range, ht.now_lt, ht.count, ht.stands, ht.now_is, fun hf => ?_, ht.lapsed⟩, hb⟩
    simp only [freshnessDue, hf, decide_true, Bool.true_and, decide_eq_true_eq] at hdue
    exact Nat.not_le.1 hdue

theorem tick_kept {s : State} (h : TimeKept 0 s) : TimeKept 0 (tick s) :=
  (tick_operations s).timeKept (freshnessTurn_kept (runClock_kept (advanceTimers_kept h)))

theorem hardReset_timeInv (s : State) : TimeInv (hardReset s) := by
  obtain ⟨hset, ht, -⟩ := (timeInv_iff _).1 reset_timeInv
  exact (timeInv_iff _).2 ⟨hset, ht, nofun⟩

/-- The first derivation after a reset puts the board state in order (R158). -/
theorem selectFirst_kept {slack : Nat} {s : State} (hset : SettingsOK s.settings) (ht : TimeOK slack s.settings s.time) :
    TimeKept slack (selectFirst s) := by
  unfold selectFirst
  obtain ⟨job, heq, -⟩ := applyBoard_paint (deriveBoard s.feed.station s.time.freshness s.time.valid) s
  rw [heq]
  exact ⟨hset, ht, rfl⟩

theorem releaseReset_timeInv {s : State} (geo1 geo0 : Bool) (hp : s.phase = .inReset) (h : TimeInv s) :
    TimeInv (releaseReset geo1 geo0 s) := by
  obtain ⟨hset, ht, -⟩ := (timeInv_iff s).1 h
  unfold releaseReset
  rw [hp]
  refine TimeKept.timeInv (TimeKept.of_stands ?_ (settle_timeStands _))
  exact selectFirst_kept hset ht

/-- Settles O7: every operation keeps the Timekeeper in order and the board state as its inputs give it, and the millisecond of a
tick is given back by the lapse of the feed. -/
theorem timeInvariantKept : Obligations.TimeInvariantKept := by
  intro s t h hstep
  have kept {u : State} (hr : Running u) (hu : TimeInv u) : TimeKept 0 u := by
    obtain ⟨hset, ht, hb⟩ := (timeInv_iff u).1 hu
    exact ⟨hset, ht, hb hr⟩
  rcases step_executed hstep with ⟨rest, hc⟩ | ⟨-, rfl⟩ | ⟨hr, rfl⟩
  · have hq : TimeInv (s.withPending rest) := h
    cases hc with
    | idle => exact hq
    | chain hr hops => exact (hops.timeKept (kept hr hq)).timeInv
    | keyInput closed => exact hq
    | reset => exact hardReset_timeInv _
    | release geo1 geo0 hp => exact releaseReset_timeInv geo1 geo0 hp hq
  · exact h
  · exact (tick_kept (kept hr h)).timeInv

end Sys2Proof.Machine

/-! O29, O30. The feed's lapse, and the overhead record that makes it fresh again. -/

namespace Sys2Proof.Machine

/-! ### The lapse -/

theorem lapseFeed_lapsed {s : State} (h : s.time.freshness = .lapsed) : lapseFeed s = s := by
  unfold lapseFeed
  rw [h]

theorem lapseFeed_fresh {s : State} (h : s.time.freshness = .fresh) : lapseFeed s =
    selectBoard (s.withTime { s.time with freshness := .lapsed, freshTimer := 60000 * s.settings.holdover }) := by
  unfold lapseFeed
  rw [h]
  rfl

/-- A derivation that leaves the board state leaves everything. -/
theorem selectBoard_unchanged {s : State} (h : (selectBoard s).board = s.board) : selectBoard s = s := by
  obtain ⟨-, -, -, hderived, -⟩ := selectBoard_repaints s
  exact if_pos (hderived.symm.trans h)

/-- The lines of TABLE are marked when the board state changes, in the form in which a mark is claimed. -/
theorem selectBoard_dirty {s : State} (h : (selectBoard s).board ≠ s.board) (n : Nat) :
    n ∈ (selectBoard s).paint.dirty ↔ n ∈ List.range (s.lines - 1) ∨ n ∈ s.paint.dirty := by
  obtain ⟨repainted, ⟨-, hdirty, -⟩, hchanged, -⟩ := selectBoard_repaints s
  have hlast : n < s.lines - 1 ↔ n + 1 < s.lines := by omega
  rw [hdirty, hchanged.2 h, List.mem_range, hlast]
  simp only [true_and, or_comm]

/-- Settles O29. -/
theorem feedLapses : Obligations.FeedLapses := by
  intro s hr _
  refine ⟨_, congrArg Host.Outcome.next (event_of_running hr lapseFeed), fun hl => ?_, fun hf => ?_⟩
  · rw [lapseFeed_lapsed hl]
    exact framedAtRest_settle (.refl _ s) (by decide)
  rw [lapseFeed_fresh hf, settle_time, settle_board]
  generalize hu : s.withTime { s.time with freshness := .lapsed, freshTimer := 60000 * s.settings.holdover } = u
  have hsame : SameBut [.time] s u := hu ▸ withTime_sameBut _ s
  have htime : u.time = { s.time with freshness := .lapsed, freshTimer := 60000 * s.settings.holdover } := by rw [← hu]; rfl
  have hboard : u.board = s.board := hsame .board (by decide)
  obtain ⟨-, -, -, hderived, htime', -⟩ := selectBoard_repaints u
  refine ⟨htime'.trans htime, ?_, fun hb => ?_, fun hb => ?_⟩
  · rw [boardIs_iff, hderived, hsame .feed (by decide), htime]
  · rw [selectBoard_unchanged (hb.trans hboard.symm)]
    exact framedAtRest_settle hsame (by decide)
  · have hturned : BoardTurned s (selectBoard u) :=
      (selectBoard_turned u).congr (hsame.mono (by decide)) (.refl _ _)
    have hlines : u.lines = s.lines := congrArg boardLines (hsame .geometry (by decide))
    have hpaint : u.paint.dirty = s.paint.dirty := hsame .dirty (by decide)
    refine ⟨boardChanged_settle hturned hb fun n => ?_, ?_⟩
    · rw [selectBoard_dirty (by rw [hboard]; exact hb), hlines, hpaint]
    · exact framedBy_raised ((hsame.trans (selectBoard_sameBut u)).mono (by decide) : SameBut boardParts s _) (by decide) (by decide)

/-! ### The overhead record -/

/-- What a record's own octets must show, as R169 says. -/
theorem recordValid_iff {o1 o2 o3 o4 o5 : Octet} : recordValid [o1, o2, o3, o4, o5] = true ↔ RecordGood o1 o2 o3 o4 o5 := by
  refine ⟨fun h => ?_, recordValid_of_good⟩
  simp only [recordValid, Bool.and_eq_true, List.all_eq_true, Bool.not_eq_true', decide_eq_true_eq] at h
  obtain ⟨hstop, hsum⟩ := h
  refine ⟨hstop, ?_⟩
  have hnat := congrArg BitVec.toNat hsum
  simp only [List.map_cons, List.map_nil, List.foldl_cons, List.foldl_nil, BitVec.toNat_add, BitVec.ofNat_eq_ofNat,
    BitVec.toNat_ofNat] at hnat
  omega

theorem judgeRecord_bad {o1 o2 o3 o4 o5 : Octet} {s : State} (h : ¬ RecordGood o1 o2 o3 o4 o5) :
    judgeRecord o1 o2 o3 o4 o5 s = s :=
  if_neg fun hv => h (recordValid_iff.1 hv)

/-- The parts a station time may touch: the stages of its event, and the turn of the board state when it makes time valid. -/
def stationTimeParts : List Part := slotParts ++ boardParts

/-- A station time leaves the Feed Receiver and the feed's freshness, and the board state as its inputs give it. -/
theorem takeStationTime_frame (minute second : Nat) (s : State) :
    SameBut stationTimeParts s (takeStationTime minute second s) ∧
      (takeStationTime minute second s).time.freshness = s.time.freshness ∧
      (takeStationTime minute second s).time.freshTimer = s.time.freshTimer ∧
      (BoardFollows s → BoardFollows (takeStationTime minute second s)) := by
  have timed (v : Timekeeper) : SameBut stationTimeParts s (s.withTime v) := (withTime_sameBut v s).mono (by decide)
  have staged (p : OriginPassage) (u : State) : SameBut stationTimeParts u (timeStages p u) :=
    (timeStages_framed p u).mono (by decide)
  by_cases husable : minute < 1440 ∧ second < 60
  · obtain ⟨hm, hs⟩ := husable
    cases hv : s.time.valid with
    | false =>
      obtain ⟨-, htime, -, hfollows⟩ := selectBoard_follows (setBoardTime minute second s)
      rw [takeStationTime_first hm hs hv, timeStages_timeIs, htime]
      have hset : SameBut stationTimeParts s (setBoardTime minute second s) := timed _
      have hselect := (selectBoard_sameBut (setBoardTime minute second s)).mono (m := stationTimeParts) (by decide)
      exact ⟨(hset.within hselect).within (staged _ _), rfl, rfl, fun _ => timeStages_follows _ hfollows⟩
    | true =>
      rw [takeStationTime_valid hm hs hv]
      split_ifs
      · exact ⟨timed _, rfl, rfl, fun hb => hb⟩
      · exact ⟨timed _, rfl, rfl, fun hb => hb⟩
      · rw [timeStages_timeIs]
        refine ⟨(timed _).within (staged _ _), rfl, rfl, fun hb => timeStages_follows _ ?_⟩
        unfold BoardFollows at hb ⊢
        rw [hv] at hb
        exact hb
  · rw [takeStationTime_unusable (by omega)]
    exact ⟨.refl _ s, rfl, rfl, fun hb => hb⟩

/-- The codes of the station states (R169). -/
theorem stationOf_iff {code : Byte} {st : StationState} : stationOf code = some st ↔ StationCodeIs code st := by
  have hcode (n : Nat) (hn : n < 256) : code = BitVec.ofNat 8 n ↔ code.toNat = n := by
    rw [← BitVec.toNat_inj, BitVec.toNat_ofNat, Nat.mod_eq_of_lt hn]
  have h0 := hcode 0 (by decide)
  have h1 := hcode 1 (by decide)
  have h2 := hcode 2 (by decide)
  have h3 := hcode 3 (by decide)
  unfold StationCodeIs stationOf
  rw [show (0 : Byte) = BitVec.ofNat 8 0 from rfl, show (1 : Byte) = BitVec.ofNat 8 1 from rfl,
    show (2 : Byte) = BitVec.ofNat 8 2 from rfl, show (3 : Byte) = BitVec.ofNat 8 3 from rfl, h0, h1, h2, h3]
  split
  case h_5 n0 n1 n2 n3 =>
    simp [show code.toNat ≠ 0 from n0, show code.toNat ≠ 1 from n1, show code.toNat ≠ 2 from n2, show code.toNat ≠ 3 from n3]
  all_goals next h => simp [h, @eq_comm _ _ st]

/-- The de-bounce moves the candidate and the station state alone of the receiver, as R170 says, and the board state follows. -/
theorem debounceStation_debounced (code : Byte) (s : State) :
    StationDebounced code s (debounceStation code s) ∧
      (debounceStation code s).feed = { s.feed with
        candidate := (debounceStation code s).feed.candidate, station := (debounceStation code s).feed.station } ∧
      (BoardFollows s → BoardFollows (debounceStation code s)) := by
  unfold debounceStation StationDebounced
  cases hcode : stationOf code with
  | none =>
    have hno (st : StationState) : ¬ StationCodeIs code st := fun h => by
      rw [stationOf_iff.2 h] at hcode
      cases hcode
    exact ⟨⟨fun st h => absurd h (hno st), fun _ => ⟨rfl, rfl⟩⟩, rfl, fun hb => hb⟩
  | some st =>
    have hst := stationOf_iff.1 hcode
    have honly {st' : StationState} (h : StationCodeIs code st') : st' = st :=
      Option.some.inj ((stationOf_iff.2 h).symm.trans hcode)
    dsimp only
    split
    · next htake =>
      split
      · next hsame =>
        refine ⟨⟨fun st' h => ?_, fun hno => absurd hst (hno st)⟩, rfl, fun hb => hb⟩
        rw [honly h]
        exact ⟨rfl, fun _ => hsame.symm, fun _ _ => rfl⟩
      · obtain ⟨-, -, hfeed, hfollows⟩ := selectBoard_follows (s.withFeed { s.feed with candidate := some st, station := st })
        rw [hfeed]
        refine ⟨⟨fun st' h => ?_, fun hno => absurd hst (hno st)⟩, rfl, fun _ => hfollows⟩
        rw [honly h]
        exact ⟨rfl, fun _ => rfl, fun hdebounce hcand => (htake.elim (fun hd => by simp [hd] at hdebounce) hcand).elim⟩
    · next hwait =>
      refine ⟨⟨fun st' h => ?_, fun hno => absurd hst (hno st)⟩, rfl, fun hb => hb⟩
      rw [honly h]
      exact ⟨rfl, fun htake => absurd htake hwait, fun _ _ => rfl⟩

theorem refreshedPart_feed (o1 o2 o3 o4 : Octet) (s : State) : (refreshedPart o1 o2 o3 o4 s).feed = { s.feed with
    lastRecord := some { minute := number2 o1.data o2.data, second := o3.data.toNat, state := o4.data } } := by
  unfold refreshedPart refreshFeed
  dsimp only
  split
  · rfl
  · obtain ⟨-, -, hfeed, -⟩ := selectBoard_follows (((s.withFeed { s.feed with
      lastRecord := some { minute := number2 o1.data o2.data, second := o3.data.toNat, state := o4.data } }).withTime
        { s.time with freshness := .fresh, freshTimer := 0 }))
    exact hfeed

/-- Settles O30. -/
theorem overheadRecordTaken : Obligations.OverheadRecordTaken := by
  intro o1 o2 o3 o4 o5 s hl hb
  refine ⟨_, congrArg Host.Outcome.next (feedEvent_of_listening hl _), fun hbad => ?_, fun hgood => ?_⟩
  · rw [judgeRecord_bad hbad]
    exact framedAtRest_settle (.refl _ s) (by decide)
  obtain ⟨a, ⟨hsame, -⟩, -, hboard, htime, -⟩ := refreshedPart_refreshed o1 o2 o3 o4 s
  have hfeed := refreshedPart_feed o1 o2 o3 o4 s
  rw [judgeRecord_good hgood]
  generalize refreshedPart o1 o2 o3 o4 s = u at *
  obtain ⟨hstage, hfresh, htimer, hfollows⟩ := takeStationTime_frame (number2 o1.data o2.data) o3.data.toNat u
  generalize takeStationTime (number2 o1.data o2.data) o3.data.toNat u = v at *
  obtain ⟨hdebounced, hreceiver, hfollows'⟩ := debounceStation_debounced o4.data v
  obtain ⟨b, ⟨hsame', -⟩, -, htime', -⟩ := debounceStation_repaints o4.data v
  generalize debounceStation o4.data v = w at *
  have hu : BoardFollows u := by
    unfold BoardFollows
    rw [hfeed, htime]
    exact hboard (boardIs_iff.1 hb)
  have hw : BoardFollows w := hfollows' (hfollows hu)
  have hwfresh : w.time.freshness = .fresh := by rw [htime', hfresh, htime]
  have hvfeed : v.feed = u.feed := hstage .feed (by decide)
  have hvset : v.settings = s.settings := (hstage .settings (by decide)).trans (hsame .settings (by decide))
  rw [settle_time, settle_feed, settle_board]
  refine ⟨?_, ?_, hwfresh, by rw [htime', htimer, htime], ?_, ?_⟩
  · rw [hreceiver, hvfeed, hfeed]
    rfl
  · unfold StationDebounced at hdebounced ⊢
    rw [hvfeed, hfeed, hvset] at hdebounced
    rw [settle_feed]
    exact hdebounced
  · rw [boardIs_iff, ← hwfresh]
    exact hw
  · exact framedBy_raised ((hsame.trans hstage).trans hsame') (by decide) (by decide)

end Sys2Proof.Machine

/-! SUPPORT and O2. The part's own time: the millisecond as one move of every timer and then the turn of each, and that the event of
a timer which alone has run out leaves every other timer short of its limit. -/

namespace Sys2Proof.Machine

/-! ### The turns of a millisecond -/

/-- The turn of a timer: whether it has run out, its event, and the command that runs the event. -/
structure Turn where
  due : State → Bool
  event : State → State
  command : Instr

/-- The turns of a millisecond after the clock's, in their order (log entry 7). -/
def turns : List Turn :=
  [⟨freshnessDue, lapseFeed, .feedLapsed⟩, ⟨windowDue, windowExpiry, .sweepWindowExpiry⟩,
    ⟨gatherDue, gatherExpiry, .gatherWindowExpiry⟩, ⟨eraseDue, sectorDone, .sectorEraseComplete⟩,
    ⟨lockDue, lockDone, .lockChangeComplete⟩, ⟨holdDue, lapseHold, .holdLapse⟩, ⟨bannerDue, expireBanner, .bannerExpiry⟩,
    ⟨pauseDue .calling, endPause .calling, .scrollPauseExpiry .calling⟩,
    ⟨pauseDue .banner, endPause .banner, .scrollPauseExpiry .banner⟩,
    ⟨stepTimerDue .calling, stepDue .calling, .scrollStepDue .calling⟩,
    ⟨stepTimerDue .banner, stepDue .banner, .scrollStepDue .banner⟩,
    ⟨shiftDue, latchShift, .shiftComplete⟩, ⟨refreshDue, refreshFrame, .refresh⟩, ⟨keyDue, keyDebounced, .staffKeyDebounced⟩]

/-- Turns taken one after another. -/
def runTurns (l : List Turn) (s : State) : State :=
  l.foldl (fun u x => fireWhen x.due x.event u) s

theorem tick_eq (s : State) : tick s = runTurns turns (runClock (advanceTimers s)) := by
  simp only [tick, runTurns, turns, List.foldl_cons, List.foldl_nil]

theorem exec_turn {x : Turn} (hx : x ∈ turns) (s : State) : exec x.command s = .next (Sys2Proof.Machine.event x.event s) := by
  simp only [turns, List.mem_cons, List.not_mem_nil, or_false] at hx
  rcases hx with rfl | rfl | rfl | rfl | rfl | rfl | rfl | rfl | rfl | rfl | rfl | rfl | rfl | rfl <;> rfl

theorem turns_distinct : turns.Pairwise (fun x y => x.command ≠ y.command) := by
  simp [turns]

theorem runTurns_none {l : List Turn} {s : State} (h : ∀ x ∈ l, x.due s = false) : runTurns l s = s := by
  induction l with
  | nil => rfl
  | cons x rest ih =>
    have hfire : fireWhen x.due x.event s = s := if_neg (by simp [h x (List.mem_cons_self ..)])
    show runTurns rest (fireWhen x.due x.event s) = s
    rw [hfire]
    exact ih fun y hy => h y (List.mem_cons_of_mem _ hy)

/-- When one timer alone has run out, and its event leaves the others short of their limits, its event is all that takes place. -/
theorem runTurns_one {l : List Turn} {s : State} {x : Turn} (hl : l.Pairwise (fun x y => x.command ≠ y.command)) (hx : x ∈ l)
    (hdue : x.due s = true) (hothers : ∀ y ∈ l, y.command ≠ x.command → y.due s = false)
    (hafter : ∀ y ∈ l, y.command ≠ x.command → y.due (settle (x.event s)) = false) :
    runTurns l s = settle (x.event s) := by
  induction l with
  | nil => cases hx
  | cons z rest ih =>
    obtain ⟨hz, hrest⟩ := List.pairwise_cons.1 hl
    show runTurns rest (fireWhen z.due z.event s) = _
    rcases List.mem_cons.1 hx with rfl | hx
    · rw [show fireWhen x.due x.event s = settle (x.event s) from if_pos hdue]
      exact runTurns_none fun y hy => hafter y (List.mem_cons_of_mem _ hy) (hz y hy).symm
    · rw [show fireWhen z.due z.event s = s from if_neg (by simp [hothers z (List.mem_cons_self ..) (hz x hx)])]
      exact ih hrest hx (fun y hy => hothers y (List.mem_cons_of_mem _ hy)) fun y hy => hafter y (List.mem_cons_of_mem _ hy)

/-! ### The timers and their limits -/

/-- No timer of the directory but that of the event `c` has run out, and a suspended erase has time left. -/
structure OpQuiet (c : Instr) (op : DirOp) : Prop where
  gather : c ≠ .gatherWindowExpiry → ∀ e, op ≠ .gathering e 0
  erase : c ≠ .sectorEraseComplete → ¬ SectorDue op
  lock : c ≠ .lockChangeComplete → ∀ l, op = .locking l → l.remaining ≠ 0
  rest : ∀ e k cause, op = .suspended e k cause → 0 < k.remaining

/-- No timer of a scroll but that of the event `c` has run out. -/
structure ScrollQuiet (which : ScrollId) (c : Instr) (sc : Scroll) : Prop where
  pause : c ≠ .scrollPauseExpiry which → ¬ PauseDue sc
  step : c ≠ .scrollStepDue which → ¬ StepFallsDue sc

/-- No timer but that of the event `c` has run out. -/
structure Quiet (c : Instr) (s : State) : Prop where
  fresh : c ≠ .feedLapsed → ¬ (s.time.freshness = .fresh ∧ 60000 * s.settings.holdover ≤ s.time.freshTimer)
  window : c ≠ .sweepWindowExpiry → ∀ expiry cap, s.table.window = .opened expiry cap → s.elapsed < expiry
  op : OpQuiet c s.dir.op
  hold : c ≠ .holdLapse → s.paint.hold ≠ .held 0
  banner : c ≠ .bannerExpiry → ∀ b ∈ s.paint.banner, b.remaining ≠ some 0
  calling : ScrollQuiet .calling c s.paint.callingScroll
  bannerScroll : ScrollQuiet .banner c s.paint.bannerScroll
  shift : c ≠ .shiftComplete → ∀ sh ∈ s.frame.shift, 0 < sh.remaining
  refresh : c ≠ .refresh → s.frame.refreshTimer < 10
  key : c ≠ .staffKeyDebounced → ∀ ms ∈ s.key.timer, ms < 20

/-! ### When each timer has run out -/

theorem freshnessDue_iff (s : State) :
    freshnessDue s = true ↔ s.time.freshness = .fresh ∧ 60000 * s.settings.holdover ≤ s.time.freshTimer := by
  rw [freshnessDue, Bool.and_eq_true]
  exact and_congr decide_eq_true_iff decide_eq_true_iff

theorem windowDue_iff (s : State) :
    windowDue s = true ↔ ∃ expiry cap, s.table.window = .opened expiry cap ∧ expiry ≤ s.elapsed := by
  unfold windowDue
  cases s.table.window <;> simp

theorem gatherDue_iff (s : State) : gatherDue s = true ↔ ∃ e, s.dir.op = .gathering e 0 := by
  unfold gatherDue
  cases s.dir.op <;> simp

theorem eraseDue_iff (s : State) : eraseDue s = true ↔ SectorDue s.dir.op := by
  unfold eraseDue SectorDue
  cases s.dir.op <;> simp

theorem lockDue_iff (s : State) : lockDue s = true ↔ ∃ l, s.dir.op = .locking l ∧ l.remaining = 0 := by
  unfold lockDue
  cases s.dir.op <;> simp

theorem holdDue_iff (s : State) : holdDue s = true ↔ s.paint.hold = .held 0 := by
  unfold holdDue
  cases s.paint.hold <;> simp

theorem bannerDue_iff (s : State) : bannerDue s = true ↔ ∃ b ∈ s.paint.banner, b.remaining = some 0 := by
  unfold bannerDue
  cases s.paint.banner <;> simp

theorem pauseDue_iff (which : ScrollId) (s : State) : pauseDue which s = true ↔ PauseDue (scrollOf s.paint which) := by
  unfold pauseDue PauseDue
  cases scrollOf s.paint which <;> simp

theorem stepTimerDue_iff (which : ScrollId) (s : State) : stepTimerDue which s = true ↔ StepFallsDue (scrollOf s.paint which) := by
  unfold stepTimerDue StepFallsDue
  cases scrollOf s.paint which <;> simp

theorem shiftDue_iff (s : State) : shiftDue s = true ↔ ∃ sh ∈ s.frame.shift, sh.remaining ≤ 0 := by
  unfold shiftDue
  cases s.frame.shift <;> simp

theorem refreshDue_iff (s : State) : refreshDue s = true ↔ 10 ≤ s.frame.refreshTimer := by
  exact decide_eq_true_iff

theorem keyDue_iff (s : State) : keyDue s = true ↔ ∃ ms ∈ s.key.timer, 20 ≤ ms := by
  unfold keyDue
  cases s.key.timer with
  | none => simp
  | some ms => simp [show keyMs = 20 from rfl]

/-- What falls due in a millisecond: the minute event, or the turn of a timer that has run out. -/
theorem fallsDue_iff (s u : State) (c : Instr) :
    FallsDue s u c ↔ (c = .minuteEvent ∧ MinuteEnds s) ∨ ∃ x ∈ turns, c = x.command ∧ x.due u = true := by
  simp only [turns, List.exists_mem_cons_iff, List.not_mem_nil, false_and, exists_false, or_false, freshnessDue_iff, windowDue_iff,
    gatherDue_iff, eraseDue_iff, lockDue_iff, holdDue_iff, bannerDue_iff, pauseDue_iff, stepTimerDue_iff, shiftDue_iff,
    refreshDue_iff, keyDue_iff]
  rfl

/-- `Quiet` in terms of the turns, beside the time a suspended erase has left. -/
theorem quiet_iff (c : Instr) (s : State) : Quiet c s ↔
    (∀ x ∈ turns, x.command ≠ c → x.due s = false) ∧ ∀ e k cause, s.dir.op = .suspended e k cause → 0 < k.remaining := by
  have off {b : Bool} : b = false ↔ ¬ b = true := by simp
  simp only [turns, List.forall_mem_cons, List.not_mem_nil, false_implies, implies_true, and_true, off, freshnessDue_iff,
    windowDue_iff, gatherDue_iff, eraseDue_iff, lockDue_iff, holdDue_iff, bannerDue_iff, pauseDue_iff, stepTimerDue_iff,
    shiftDue_iff, refreshDue_iff, keyDue_iff, not_exists, not_and, Int.not_le, Nat.not_le, @ne_comm _ _ c]
  constructor
  · rintro ⟨h1, h2, ⟨h3, h4, h5, h6⟩, h7, h8, ⟨h9, h10⟩, ⟨h11, h12⟩, h13, h14, h15⟩
    exact ⟨⟨fun h hf => Nat.not_le.1 fun hle => h1 h ⟨hf, hle⟩, h2, h3, h4, h5, h7, h8, h9, h11, h10, h12, h13, h14, h15⟩, h6⟩
  · rintro ⟨⟨h1, h2, h3, h4, h5, h7, h8, h9, h11, h10, h12, h13, h14, h15⟩, h6⟩
    exact ⟨fun h hf => Nat.not_le.2 (h1 h hf.1) hf.2, h2, ⟨h3, h4, h5, h6⟩, h7, h8, ⟨h9, h10⟩, ⟨h11, h12⟩, h13, h14, h15⟩

end Sys2Proof.Machine

/-! SUPPORT for O2. The event of a timer that alone has run out leaves every other timer short of its limit. -/

namespace Sys2Proof.Machine

/-! ### What keeps the timers short of their limits -/

theorem ScrollQuiet.still (which : ScrollId) (c : Instr) : ScrollQuiet which c .still where
  pause := fun _ ⟨_, h⟩ => by cases h
  step := fun _ ⟨_, _, _, h, _⟩ => by cases h

/-- What an operation leaves keeps short of its limit what it was; the window and the directory's operation, which it may enter,
are shown anew. -/
theorem SameBut.quiet {l : List Part} {c : Instr} {s t : State} (h : SameBut l s t) (g : Quiet c s)
    (hl : ∀ p ∈ [Part.settings, .elapsed, .hold, .banner, .callingScroll, .bannerScroll, .frame, .key], p ∉ l := by
      decide)
    (time : .time ∉ l ∨ t.time.freshness = s.time.freshness ∧ t.time.freshTimer = s.time.freshTimer := by
      exact .inl (by decide))
    (window : .window ∉ l ∨ (c ≠ .sweepWindowExpiry → ∀ expiry cap, t.table.window = .opened expiry cap → t.elapsed < expiry) := by
      exact .inl (by decide))
    (op : .dirOp ∉ l ∨ OpQuiet c t.dir.op := by exact .inl (by decide)) : Quiet c t := by
  simp only [List.forall_mem_cons, List.not_mem_nil, false_implies, implies_true, and_true] at hl
  obtain ⟨hset, helapsed, hhold, hbanner, hcalling, hscroll, hframe, hkey⟩ := hl
  have set : t.settings = s.settings := h _ hset
  have elapsed : t.elapsed = s.elapsed := h _ helapsed
  have fresh : t.time.freshness = s.time.freshness ∧ t.time.freshTimer = s.time.freshTimer :=
    time.elim (fun hp => (h _ hp : t.time = s.time) ▸ ⟨rfl, rfl⟩) id
  have hold : t.paint.hold = s.paint.hold := h _ hhold
  have banner : t.paint.banner = s.paint.banner := h _ hbanner
  have calling : t.paint.callingScroll = s.paint.callingScroll := h _ hcalling
  have bannerScroll : t.paint.bannerScroll = s.paint.bannerScroll := h _ hscroll
  have frame : t.frame = s.frame := h _ hframe
  have key : t.key = s.key := h _ hkey
  have opened (hc : c ≠ .sweepWindowExpiry) : ∀ expiry cap, t.table.window = .opened expiry cap → t.elapsed < expiry :=
    window.elim (fun hp => by rw [(h _ hp : t.table.window = s.table.window), elapsed]; exact g.window hc) fun hw => hw hc
  have dir : OpQuiet c t.dir.op := op.elim (fun hd => (h .dirOp hd : t.dir.op = s.dir.op) ▸ g.op) id
  exact ⟨by rw [fresh.1, fresh.2, set]; exact g.fresh, opened, dir,
    hold ▸ g.hold, banner ▸ g.banner, calling ▸ g.calling, bannerScroll ▸ g.bannerScroll, frame ▸ g.shift, frame ▸ g.refresh,
    key ▸ g.key⟩

/-! ### The operation of the directory -/

theorem opQuiet_ready (c : Instr) : OpQuiet c .ready :=
  ⟨nofun, fun _ hdue => (by rcases hdue with ⟨_, _, h, _⟩ | ⟨_, _, _, _, h, _⟩ <;> cases h), nofun, nofun⟩

theorem opQuiet_erasing (c : Instr) (e : EraseJob) (k : Current) :
    OpQuiet c (.erasing e k) ↔ (c ≠ .sectorEraseComplete → 0 < k.remaining) := by
  constructor
  · intro h hc
    exact Nat.pos_of_ne_zero fun hzero => h.erase hc (.inl ⟨e, k, rfl, hzero⟩)
  · refine fun h => ⟨nofun, fun hc hdue => ?_, nofun, nofun⟩
    rcases hdue with ⟨_, _, hop, hzero⟩ | ⟨_, _, _, _, hop, _⟩
    · cases hop
      exact absurd hzero (Nat.pos_iff_ne_zero.1 (h hc))
    · cases hop

theorem opQuiet_suspending (c : Instr) (e : EraseJob) (k : Current) (cause : SuspendCause) (merged : List Header) :
    OpQuiet c (.suspending e k cause merged) ↔ (c ≠ .sectorEraseComplete → k.begun = true → 0 < k.remaining) := by
  constructor
  · intro h hc hbegun
    exact Nat.pos_of_ne_zero fun hzero => h.erase hc (.inr ⟨e, k, cause, merged, rfl, hbegun, hzero⟩)
  · refine fun h => ⟨nofun, fun hc hdue => ?_, nofun, nofun⟩
    rcases hdue with ⟨_, _, hop, _⟩ | ⟨_, _, _, _, hop, hbegun, hzero⟩
    · cases hop
    · cases hop
      exact absurd hzero (Nat.pos_iff_ne_zero.1 (h hc hbegun))

/-- The paint suspend request ends no directory timer: it suspends a running erase, or resumes one that has time left (R87). -/
theorem OpQuiet.settled {c : Instr} {op : DirOp} {marks : List Nat} {t : State} (h : OpQuiet c op)
    (hs : DirSettled op marks t) : OpQuiet c t.dir.op := by
  rcases hs with ⟨hop, -⟩ | ⟨e, k, rfl, -, hop, -⟩ | ⟨e, k, rfl, hop, -⟩
  · exact hop ▸ h
  · rw [hop, opQuiet_suspending]
    exact fun hc _ => (opQuiet_erasing c e k).1 h hc
  · rw [hop, opQuiet_erasing]
    exact fun _ => h.rest e k .paint rfl

theorem Quiet.settle {c : Instr} {s : State} (h : Quiet c s) : Quiet c (settle s) :=
  (settle_sameBut s).quiet h (op := .inr (h.op.settled (settle_dirSettled s)))

/-! ### The events of the directory -/

theorem firstCurrent_remaining (set : List Nat) : 0 < (firstCurrent set).remaining := by
  show 0 < eraseMs
  decide

theorem gatherExpiry_quiet {c : Instr} {s : State} (h : Quiet c s) : Quiet c (gatherExpiry s) := by
  refine (gatherExpiry_sameBut s).quiet h (op := .inr ?_)
  unfold gatherExpiry
  split
  · next e _ _ =>
    unfold enterErasing
    dsimp only
    split
    · exact (opQuiet_suspending ..).2 fun _ _ => firstCurrent_remaining e.set
    · exact (opQuiet_erasing ..).2 fun _ => firstCurrent_remaining e.set
  · exact h.op

theorem answerAll_op (kind : Byte) (hs : List Header) (o d : Nat) (s : State) : (answerAll kind hs o d s).dir.op = s.dir.op :=
  answerAll_sameBut kind hs o d s .dirOp (by decide)

theorem sectorDone_quiet {c : Instr} {s : State} (h : Quiet c s) : Quiet c (sectorDone s) := by
  refine (sectorDone_sameBut s).quiet h (op := .inr ?_)
  unfold sectorDone
  split
  · next e k _ =>
    dsimp only
    split
    · rw [answerAll_op]
      exact opQuiet_ready c
    · exact (opQuiet_erasing c _ _).2 fun _ => firstCurrent_remaining (e.done k.sector).set
  · next e k _ _ _ =>
    dsimp only
    split
    · split
      · rw [answerAll_op, answerAll_op]
        exact opQuiet_ready c
      · exact (opQuiet_suspending c _ _ _ _).2 fun _ _ => firstCurrent_remaining (e.done k.sector).set
    · exact h.op
  · exact h.op

theorem lockDone_quiet {c : Instr} {s : State} (h : Quiet c s) : Quiet c (lockDone s) := by
  refine (lockDone_sameBut s).quiet h (op := .inr ?_)
  unfold lockDone
  split
  · next l hl =>
    have hready (u : State) : (answer l.kind l.header outDone (maskOf l.target) u).dir.op = u.dir.op :=
      answer_sameBut _ _ _ _ u .dirOp (by decide)
    rw [hready]
    exact opQuiet_ready c
  · exact h.op

theorem windowExpiry_quiet {s : State} (h : Quiet .sweepWindowExpiry s) : Quiet .sweepWindowExpiry (windowExpiry s) :=
  (windowExpiry_sameBut s).quiet h (window := .inr fun hc => absurd rfl hc)

/-! ### The events of the Paint Engine -/

theorem Quiet.withPaint {c : Instr} {s : State} {v : Paint} (h : Quiet c s)
    (hold : v.hold = s.paint.hold ∨ c = .holdLapse := by exact .inl rfl)
    (banner : v.banner = s.paint.banner ∨ c = .bannerExpiry := by exact .inl rfl)
    (calling : v.callingScroll = s.paint.callingScroll ∨ ScrollQuiet .calling c v.callingScroll := by exact .inl rfl)
    (bannerScroll : v.bannerScroll = s.paint.bannerScroll ∨ ScrollQuiet .banner c v.bannerScroll := by exact .inl rfl) :
    Quiet c (s.withPaint v) where
  fresh := h.fresh
  window := h.window
  op := h.op
  hold hc := (hold.resolve_right hc : v.hold = s.paint.hold) ▸ h.hold hc
  banner hc := (banner.resolve_right hc : v.banner = s.paint.banner) ▸ h.banner hc
  calling := calling.elim (fun e => e ▸ h.calling) id
  bannerScroll := bannerScroll.elim (fun e => e ▸ h.bannerScroll) id
  shift := h.shift
  refresh := h.refresh
  key := h.key

theorem lapseHold_quiet {s : State} (h : Quiet .holdLapse s) : Quiet .holdLapse (lapseHold s) := by
  unfold lapseHold
  split
  · exact h.withPaint (hold := .inr rfl)
  · exact h
  · exact h

/-- The removal of the banner stops its scroll and leaves the hold and the calling scroll (R139). -/
theorem removeBanner_paint (s : State) : ∃ v, removeBanner s = s.withPaint v ∧ v.hold = s.paint.hold ∧
    v.callingScroll = s.paint.callingScroll ∧ v.bannerScroll = .still := by
  have keep {v : Paint} (h : v.hold = s.paint.hold ∧ v.callingScroll = s.paint.callingScroll ∧ v.bannerScroll = .still) :
      ∃ w, revokeJob (s.withPaint v) = s.withPaint w ∧ w.hold = s.paint.hold ∧
        w.callingScroll = s.paint.callingScroll ∧ w.bannerScroll = .still := by
    obtain ⟨job, hjob, -⟩ := revokeJob_eq (s.withPaint v)
    exact ⟨{ v with job := job }, hjob, h⟩
  unfold removeBanner
  dsimp only
  split
  · split
    · exact keep ⟨rfl, rfl, rfl⟩
    · exact keep ⟨rfl, rfl, rfl⟩
  · split
    · exact keep ⟨rfl, rfl, rfl⟩
    · exact keep ⟨rfl, rfl, rfl⟩

theorem expireBanner_quiet {s : State} (h : Quiet .bannerExpiry s) : Quiet .bannerExpiry (expireBanner s) := by
  unfold expireBanner
  split
  · split
    · obtain ⟨v, hv, hhold, hcalling, hscroll⟩ := removeBanner_paint s
      rw [hv]
      exact h.withPaint (hold := .inl hhold) (banner := .inr rfl) (calling := .inl hcalling)
        (bannerScroll := .inr (hscroll ▸ ScrollQuiet.still _ _))
    · exact h
  · exact h

/-- A step's interval lasts (R135): the scroll rate is 10 to 100 steps a second. -/
theorem stepInterval_pos {s : State} (hset : SettingsOK s.settings) : 0 < stepInterval s := by
  obtain ⟨-, -, -, -, -, -, -, -, -, -, ⟨hlow, hhigh⟩, -, -⟩ := hset
  have : 0 < 1000000000 / s.settings.scrollRate := Nat.div_pos (by omega) (by omega)
  unfold stepInterval
  omega

theorem Quiet.withScroll {c : Instr} {s : State} {which : ScrollId} {sc : Scroll} (h : Quiet c s)
    (hsc : ScrollQuiet which c sc) : Quiet c (withScroll which sc s) := by
  cases which with
  | calling => exact h.withPaint (calling := .inr hsc)
  | banner => exact h.withPaint (bannerScroll := .inr hsc)

theorem endPause_quiet {which : ScrollId} {s : State} (hset : SettingsOK s.settings) (h : Quiet (.scrollPauseExpiry which) s) :
    Quiet (.scrollPauseExpiry which) (endPause which s) := by
  unfold endPause
  split
  · refine h.withScroll ⟨fun hc => absurd rfl hc, fun _ ⟨_, _, _, hmoving, hdue⟩ => ?_⟩
    cases hmoving
    exact absurd hdue (Int.not_le.2 (stepInterval_pos hset))
  · exact h
  · exact h

theorem stepDue_quiet {which : ScrollId} {s : State} (h : Quiet (.scrollStepDue which) s) :
    Quiet (.scrollStepDue which) (stepDue which s) := by
  have moving (strip : List Column) (offset wait : Int) :
      ScrollQuiet which (.scrollStepDue which) (.moving strip offset wait) :=
    ⟨fun _ ⟨_, hpaused⟩ => (nomatch hpaused), fun hc => absurd rfl hc⟩
  unfold stepDue
  split
  · next strip offset wait _ =>
    have h := h.withScroll (moving strip offset (min wait 0 + stepInterval s))
    cases which with
    | calling => exact h.withPaint
    | banner => exact h.withPaint
  · exact h
  · exact h

/-! ### The events of the Frame Store, the staff key and the feed -/

/-- A board has modules, so a shift lasts (R96, R151). -/
theorem shiftTime_pos (code : Nat) : 0 < shiftTime code := by
  have : 0 < moduleCount code := by
    unfold moduleCount modulesAcross boardWidth boardLines
    split <;> decide
  unfold shiftTime
  omega

theorem refreshFrame_quiet {s : State} (h : Quiet .refresh s) : Quiet .refresh (refreshFrame s) :=
  { h with
    shift := fun _ sh hsh => by
      cases hsh
      exact shiftTime_pos s.geometry
    refresh := fun hc => absurd rfl hc }

theorem latchShift_quiet {s : State} (h : Quiet .shiftComplete s) : Quiet .shiftComplete (latchShift s) := by
  unfold latchShift
  split
  · exact { h with shift := fun hc => absurd rfl hc }
  · exact h

theorem keyDebounced_quiet {s : State} (h : Quiet .staffKeyDebounced s) : Quiet .staffKeyDebounced (keyDebounced s) := by
  unfold keyDebounced
  split
  · exact { h with key := fun hc => absurd rfl hc }
  · exact h

/-- A change of board state stops scrolls and starts none (R137, R155). -/
theorem selectBoard_quiet {c : Instr} {s : State} (h : Quiet c s) : Quiet c (selectBoard s) := by
  unfold selectBoard
  dsimp only
  split
  · exact h
  · next hnew =>
    obtain ⟨job, hjob, -⟩ := applyBoard_paint (deriveBoard s.feed.station s.time.freshness s.time.valid) s
    have hboard : Quiet c (s.withBoard (deriveBoard s.feed.station s.time.freshness s.time.valid)) := { h with }
    rw [hjob]
    refine hboard.withPaint (calling := ?_) (bannerScroll := ?_)
    · dsimp only [boardPaint]
      split
      · exact .inr (.still _ _)
      · exact .inl rfl
    · dsimp only [boardPaint]
      split
      · exact .inl rfl
      · exact .inr (.still _ _)

theorem lapseFeed_quiet {s : State} (h : Quiet .feedLapsed s) : Quiet .feedLapsed (lapseFeed s) := by
  unfold lapseFeed
  split
  · exact h
  · exact selectBoard_quiet { h with fresh := fun hc => absurd rfl hc }

/-! ### The minute event -/

theorem advanceMinute_freshness (s : State) : (advanceMinute s).time.freshness = s.time.freshness ∧
    (advanceMinute s).time.freshTimer = s.time.freshTimer := by
  unfold advanceMinute
  split
  · dsimp only
    rw [timeStages_timeIs]
    exact ⟨rfl, rfl⟩
  · exact ⟨rfl, rfl⟩

/-- The minute's stages leave a window open past the millisecond (R55). -/
theorem advanceMinute_fits {s : State} (hset : SettingsOK s.settings) (h : WindowFits 1 s.elapsed s.table) :
    WindowFits 1 s.elapsed (advanceMinute s).table := by
  have stages (p : OriginPassage) (v : Timekeeper) : WindowFits 1 s.elapsed (timeStages p (s.withTime v)).table :=
    timeStages_fits (s := s.withTime v) p (Nat.le_refl 1) hset h
  unfold advanceMinute
  split
  · exact stages _ _
  · exact h

theorem advanceMinute_quiet {c : Instr} {s : State} (hset : SettingsOK s.settings) (hfits : WindowFits 1 s.elapsed s.table)
    (h : Quiet c s) : Quiet c (advanceMinute s) := by
  have hkept : SameBut (.time :: .requests :: slotParts) s (advanceMinute s) := advanceMinute_sameBut s
  have helapsed : (advanceMinute s).elapsed = s.elapsed := hkept .elapsed (by decide)
  refine hkept.quiet h (time := .inr (advanceMinute_freshness s)) (window := .inr fun _ expiry cap hw => ?_)
  have hopen := advanceMinute_fits hset hfits
  rw [WindowFits, hw] at hopen
  omega

end Sys2Proof.Machine

/-! The millisecond with no command waiting: the timers move on, a timer that alone has run out has its event, and neither changes
a setting or takes anything from the feed. Settles O2. -/

namespace Sys2Proof.Machine

/-! ### Every timer one millisecond on -/

theorem advanceOp_eq (op : DirOp) : advanceOp op = opOn op := by
  cases op with
  | suspending e k cause merged =>
    simp only [advanceOp, opOn]
    split <;> rfl
  | scanning | ready | writing _ | locking _ | gathering _ _ | erasing _ _ | suspended _ _ _ | suspendedWriting _ _ _ _ => rfl

theorem advanceScroll_eq (sc : Scroll) : advanceScroll sc = scrollOn sc := by
  cases sc <;> rfl

/-- The timers moved on, with running board time, are the millisecond before any event. -/
theorem millisecondOn_eq (s : State) :
    millisecondOn s = (advanceTimers s).withTime (clockOn (advanceTimers s).time) := by
  simp only [millisecondOn, ← advanceOp_eq, ← advanceScroll_eq, advanceTimers, State.withElapsed, State.withTime, State.withDir,
    State.withPaint, State.withFrame, State.withKey]
  cases s.time.freshness <;> cases s.paint.hold <;> rfl

theorem runClock_running {u : State} (h : ¬ MinuteEnds u) : runClock u = u.withTime (clockOn u.time) := by
  unfold runClock clockOn
  split
  · split
    · rfl
    · split
      · rfl
      · next hv hms hsec => exact absurd ⟨hv, by omega, by omega⟩ h
  · rfl

theorem runClock_minute {u : State} (h : MinuteEnds u) : runClock u = settle (advanceMinute u) := by
  obtain ⟨hv, hsec, hms⟩ := h
  rw [runClock, if_pos hv, if_neg (by omega), if_neg (by omega)]

theorem clockOn_minute {t : Timekeeper} (hv : t.valid = true) (hsec : 59 ≤ t.second) (hms : 999 ≤ t.milli) : clockOn t = t := by
  rw [clockOn, if_pos hv, if_neg (by omega), if_neg (by omega)]

theorem tick_running {s : State} (h : ¬ MinuteEnds s) : tick s = runTurns turns (millisecondOn s) := by
  rw [tick_eq, runClock_running (u := advanceTimers s) h, millisecondOn_eq]

theorem tick_minute {s : State} (h : MinuteEnds s) : tick s = runTurns turns (settle (advanceMinute (millisecondOn s))) := by
  have hsame : millisecondOn s = advanceTimers s := by
    obtain ⟨hv, hsec, hms⟩ := h
    rw [millisecondOn_eq, clockOn_minute (t := (advanceTimers s).time) hv hsec hms]
    rfl
  rw [tick_eq, runClock_minute (u := advanceTimers s) h, hsame]

theorem step_idle {s : State} (hq : s.pending = []) : step s = .next (idle s) := by
  unfold step
  rw [hq]

theorem step_tick {s : State} (hq : s.pending = []) (hr : s.phase = .running) : step s = .next (tick s) := by
  rw [step_idle hq, idle, hr]

/-! ### A timer that alone has run out -/

theorem Turn.event_quiet {x : Turn} (hx : x ∈ turns) {s : State} (hset : SettingsOK s.settings) (h : Quiet x.command s) :
    Quiet x.command (x.event s) := by
  simp only [turns, List.mem_cons, List.not_mem_nil, or_false] at hx
  rcases hx with rfl | rfl | rfl | rfl | rfl | rfl | rfl | rfl | rfl | rfl | rfl | rfl | rfl | rfl
  · exact lapseFeed_quiet h
  · exact windowExpiry_quiet h
  · exact gatherExpiry_quiet h
  · exact sectorDone_quiet h
  · exact lockDone_quiet h
  · exact lapseHold_quiet h
  · exact expireBanner_quiet h
  · exact endPause_quiet hset h
  · exact endPause_quiet hset h
  · exact stepDue_quiet h
  · exact stepDue_quiet h
  · exact latchShift_quiet h
  · exact refreshFrame_quiet h
  · exact keyDebounced_quiet h

theorem Turn.command_ne_minute {x : Turn} (hx : x ∈ turns) : x.command ≠ .minuteEvent := by
  simp only [turns, List.mem_cons, List.not_mem_nil, or_false] at hx
  rcases hx with rfl | rfl | rfl | rfl | rfl | rfl | rfl | rfl | rfl | rfl | rfl | rfl | rfl | rfl <;> nofun

/-- The millisecond takes no time from a suspended erase (R84). -/
theorem opOn_suspended {op : DirOp} {e : EraseJob} {k : Current} {cause : SuspendCause} (h : opOn op = .suspended e k cause) :
    op = .suspended e k cause := by
  cases op <;> simp_all [opOn]

/-- With `c` alone due no other timer has run out. -/
theorem millisecondOn_quiet {c : Instr} {s : State} (hrest : ∀ e k cause, s.dir.op = .suspended e k cause → 0 < k.remaining)
    (honly : ∀ d, FallsDue s (millisecondOn s) d → d = c) : Quiet c (millisecondOn s) := by
  refine (quiet_iff c _).2 ⟨fun x hx hne => ?_, fun e k cause hop => hrest e k cause (opOn_suspended hop)⟩
  refine Bool.eq_false_iff.2 fun hdue => hne (honly _ ?_)
  exact (fallsDue_iff ..).2 (.inr ⟨x, hx, rfl, hdue⟩)

/-- A window that is not due has a millisecond before it. -/
theorem millisecondOn_fits {c : Instr} {s : State} (hc : c ≠ .sweepWindowExpiry) (h : WindowFits 1 s.elapsed s.table)
    (hq : Quiet c (millisecondOn s)) : WindowFits 1 (millisecondOn s).elapsed (millisecondOn s).table := by
  have htable : (millisecondOn s).table = s.table := rfl
  have helapsed : (millisecondOn s).elapsed = s.elapsed + 1 := rfl
  have hopen := hq.window hc
  rw [htable, helapsed] at hopen
  rw [htable, helapsed]
  unfold WindowFits at h ⊢
  cases hw : s.table.window with
  | closed => rw [hw] at h; exact h
  | opened expiry cap =>
    rw [hw] at h
    have := hopen expiry cap hw
    dsimp only at h ⊢
    omega

/-- When one timer alone runs out its event is all that follows the millisecond. -/
theorem tick_one_due {c : Instr} {s : State} (hr : s.phase = .running) (hw : WindowInv s)
    (hrest : ∀ e k cause, s.dir.op = .suspended e k cause → 0 < k.remaining) (hdue : FallsDue s (millisecondOn s) c)
    (honly : ∀ d, FallsDue s (millisecondOn s) d → d = c) : .next (tick s) = exec c (millisecondOn s) := by
  have hq := millisecondOn_quiet hrest honly
  have hrun : Running (millisecondOn s) := hr
  obtain ⟨hset, -, hfits⟩ := (windowInv_iff s).1 hw
  rcases (fallsDue_iff ..).1 hdue with ⟨rfl, hminute⟩ | ⟨x, hx, rfl, hxdue⟩
  · have hafter := (advanceMinute_quiet (s := millisecondOn s) hset (millisecondOn_fits (by simp) hfits hq) hq).settle
    rw [tick_minute hminute, runTurns_none fun y hy => ((quiet_iff ..).1 hafter).1 y hy (y.command_ne_minute hy)]
    exact congrArg Host.Outcome.next (event_of_running hrun advanceMinute).symm
  · have hminute : ¬ MinuteEnds s := fun hends =>
      x.command_ne_minute hx (honly _ (.inl ⟨rfl, hends⟩)).symm
    have hafter := (x.event_quiet hx (s := millisecondOn s) hset hq).settle
    rw [tick_running hminute, runTurns_one turns_distinct hx hxdue ((quiet_iff ..).1 hq).1 ((quiet_iff ..).1 hafter).1,
      exec_turn hx, event_of_running hrun]

/-! ### What an idle millisecond leaves -/

/-- What an event of the part's own time may touch. -/
def idleParts : List Part :=
  [.key, .results, .time, .board, .slots, .order, .window, .storage, .slotStates, .counts, .lockFlags, .locks, .hold, .banner,
    .callingScroll, .bannerScroll, .frame] ++ arbiterParts

theorem Turn.event_idle {x : Turn} (hx : x ∈ turns) (s : State) : SameBut idleParts s (x.event s) := by
  simp only [turns, List.mem_cons, List.not_mem_nil, or_false] at hx
  rcases hx with rfl | rfl | rfl | rfl | rfl | rfl | rfl | rfl | rfl | rfl | rfl | rfl | rfl | rfl
  · exact (lapseFeed_sameBut s).mono (by decide)
  · exact (windowExpiry_sameBut s).mono (by decide)
  · exact (gatherExpiry_sameBut s).mono (by decide)
  · exact (sectorDone_sameBut s).mono (by decide)
  · exact (lockDone_sameBut s).mono (by decide)
  · exact (lapseHold_sameBut s).mono (by decide)
  · exact (expireBanner_sameBut s).mono (by decide)
  · exact (endPause_sameBut _ s).mono (by decide)
  · exact (endPause_sameBut _ s).mono (by decide)
  · exact (stepDue_sameBut _ s).mono (by decide)
  · exact (stepDue_sameBut _ s).mono (by decide)
  · exact (latchShift_sameBut s).mono (by decide)
  · exact (refreshFrame_sameBut s).mono (by decide)
  · exact (keyDebounced_sameBut s).mono (by decide)

theorem settle_idle (s : State) : SameBut idleParts s (settle s) :=
  (settle_sameBut s).mono fun _ hp => List.mem_append_right _ hp

theorem runTurns_idle {l : List Turn} (hl : ∀ x ∈ l, x ∈ turns) (s : State) : SameBut idleParts s (runTurns l s) := by
  induction l generalizing s with
  | nil => exact .refl _ s
  | cons x rest ih =>
    have hfire : SameBut idleParts s (fireWhen x.due x.event s) :=
      sameBut_ite ((x.event_idle (hl x (List.mem_cons_self ..)) s).within (settle_idle _)) (.refl _ s)
    exact hfire.within (ih (fun y hy => hl y (List.mem_cons_of_mem _ hy)) _)

theorem millisecondOn_sameBut (s : State) : SameBut (.elapsed :: idleParts) s (millisecondOn s) := by
  intro p hp
  cases p <;> simp_all [Part.same, idleParts, arbiterParts, millisecondOn]

/-- A tick leaves what the timers and their events leave, and takes elapsed time one millisecond on. -/
theorem tick_idle (s : State) : SameBut idleParts (millisecondOn s) (tick s) := by
  by_cases h : MinuteEnds s
  · rw [tick_minute h]
    exact (((advanceMinute_sameBut _).mono (by decide)).within (settle_idle _)).within (runTurns_idle (fun _ hx => hx) _)
  · rw [tick_running h]
    exact runTurns_idle (fun _ hx => hx) _

/-- Settles O2: the tick is the millisecond and the turns of its timers, and the event of a timer that alone has run out leaves
every other timer short of its limit. -/
theorem emptyQueuePassesTime : Obligations.EmptyQueuePassesTime := by
  unfold Obligations.EmptyQueuePassesTime
  intro s hq
  refine ⟨fun hr => by rw [step_idle hq, idle, hr], fun hr => ?_⟩
  rw [step_tick hq hr]
  refine ⟨fun hnone => congrArg _ ?_, fun c hw hrest hdue honly => tick_one_due hr hw hrest hdue honly,
    tick s, rfl, tick_idle s .elapsed (by decide), ?_⟩
  · rw [tick_running fun hends => hnone _ (.inl ⟨rfl, hends⟩)]
    exact runTurns_none fun x hx => Bool.eq_false_iff.2 fun hdue => hnone _ ((fallsDue_iff ..).2 (.inr ⟨x, hx, rfl, hdue⟩))
  · exact ((millisecondOn_sameBut s).within ((tick_idle s).mono fun _ hp => List.mem_cons_of_mem _ hp))

end Sys2Proof.Machine

/-! SUPPORT for O54. Texts: the width of a glyph by its class, the width and the columns of a text, and what an image shows once
texts are set into it. -/

namespace Sys2Proof.Machine

/-! ### Glyphs -/

theorem glyphWidth_thin (f : Font) : ∀ c ∈ glyphs ".,:;'!", glyphWidth f c = if f = .large then 2 else 1 := by
  cases f <;> decide

theorem glyphWidth_narrow (f : Font) : ∀ c ∈ glyphs "ijlI()[]", glyphWidth f c = if f = .large then 3 else 2 := by
  cases f <;> decide

theorem glyphWidth_space (f : Font) : glyphWidth f 0x20 = if f = .large then 4 else 3 := by
  cases f <;> decide

theorem glyphWidth_medium (f : Font) : ∀ c ∈ glyphs "frt-/&", glyphWidth f c = if f = .large then 5 else 3 := by
  cases f <;> decide

theorem glyphWidth_wide (f : Font) : ∀ c ∈ glyphs "mwMW", glyphWidth f c = if f = .large then 8 else 5 := by
  cases f <;> decide

/-- A code of no class has the width of an ordinary glyph. -/
theorem glyphWidth_ordinary (f : Font) {c : Byte} (hc : c ∉ glyphs ".,:;'!ijlI()[] frt-/&mwMW") :
    glyphWidth f c = if f = .large then 6 else 4 := by
  have outside {l : List Nat} (hl : ∀ n ∈ l, BitVec.ofNat 8 n ∈ glyphs ".,:;'!ijlI()[] frt-/&mwMW") :
      l.contains c.toNat = false := by
    refine Bool.eq_false_iff.2 fun hmem => hc ?_
    have := hl c.toNat (List.contains_iff_mem.1 hmem)
    rwa [BitVec.ofNat_toNat, BitVec.setWidth_eq] at this
  have hspace : c ≠ spaceGlyph := fun he => hc (he ▸ by decide)
  unfold glyphWidth
  rw [outside (l := thinGlyphs) (by decide), outside (l := narrowGlyphs) (by decide), outside (l := mediumGlyphs) (by decide),
    outside (l := wideGlyphs) (by decide)]
  dsimp only
  rw [if_neg Bool.false_ne_true, if_neg Bool.false_ne_true, if_neg hspace, if_neg Bool.false_ne_true, if_neg Bool.false_ne_true]
  cases f <;> rfl

theorem glyphWidth_le (c : Byte) : glyphWidth .large c ≤ 8 := by
  unfold glyphWidth
  dsimp only
  split_ifs <;> decide

/-- The rows a font's cell occupies (R99). -/
theorem fontRows_bounds (f : Font) {row : Nat} (h : (fontRows f).getLsbD row = true) :
    if f = .large then 2 ≤ row ∧ row ≤ 12 else 5 ≤ row ∧ row ≤ 11 := by
  have rows : ∀ n < 16, (fontRows f).getLsbD n = true → if f = .large then 2 ≤ n ∧ n ≤ 12 else 5 ≤ n ∧ n ≤ 11 := by
    cases f <;> decide
  exact rows row (BitVec.lt_of_getLsbD h) h

theorem glyphIs (f : Font) (c : Byte) : GlyphIs f c (glyphWidth f c) (glyphColumns f c) := by
  refine ⟨glyphWidth_thin f c, glyphWidth_narrow f c, fun hc => hc ▸ glyphWidth_space f, glyphWidth_medium f c,
    glyphWidth_wide f c, glyphWidth_ordinary f, by simp [glyphColumns], fun hc column hcol => ?_, fun column hcol row hrow => ?_⟩
  · obtain ⟨i, -, rfl⟩ := List.mem_map.1 hcol
    exact if_pos hc
  · obtain ⟨i, -, rfl⟩ := List.mem_map.1 hcol
    split at hrow
    · simp at hrow
    · rw [BitVec.getLsbD_and, Bool.and_eq_true] at hrow
      exact fontRows_bounds f hrow.2

/-! ### Widths and columns of texts -/

theorem textWidth_nil (f : Font) : textWidth f [] = 0 := rfl

theorem textWidth_single (f : Font) (c : Byte) : textWidth f [c] = glyphWidth f c := by
  simp [textWidth]

theorem textWidth_append (f : Font) {a b : Text} (ha : a ≠ []) (hb : b ≠ []) :
    textWidth f (a ++ b) = textWidth f a + 1 + textWidth f b := by
  have := List.length_pos_iff.2 ha
  have := List.length_pos_iff.2 hb
  simp only [textWidth, List.map_append, List.sum_append, List.length_append]
  omega

theorem textColumns_append (f : Font) {a b : Text} (ha : a ≠ []) (hb : b ≠ []) :
    textColumns f (a ++ b) = textColumns f a ++ [0] ++ textColumns f b := by
  induction a with
  | nil => exact absurd rfl ha
  | cons c rest ih =>
    cases rest with
    | nil =>
      obtain ⟨d, r, rfl⟩ := List.exists_cons_of_ne_nil hb
      simp [textColumns]
    | cons d r => simpa [textColumns] using ih (by simp)

/-- A text is at most nine columns a glyph, the gap with it. -/
theorem textWidth_le (t : Text) : textWidth .large t ≤ 9 * t.length := by
  have hsum : (t.map (glyphWidth .large)).sum ≤ t.length * 8 := by
    have := List.sum_le_card_nsmul (t.map (glyphWidth .large)) 8 fun w hw => by
      obtain ⟨c, -, rfl⟩ := List.mem_map.1 hw
      exact glyphWidth_le c
    simpa using this
  unfold textWidth
  omega

/-! ### Images -/

theorem getElem?_setColumns (start : Nat) (cols image : List Column) (x : Nat) :
    (setColumns start cols image)[x]? =
      if x < image.length then if start ≤ x ∧ x < start + cols.length then cols[x - start]? else image[x]? else none := by
  unfold setColumns
  rw [List.getElem?_take]
  split
  · next hx =>
    split
    · next hin =>
      obtain ⟨hlow, hhigh⟩ := hin
      have htake : (image.take start).length = start := by simp; omega
      rw [List.append_assoc, List.getElem?_append_right (by omega), htake, List.getElem?_append_left (by omega)]
    · next hout =>
      by_cases hlow : x < start
      · rw [List.append_assoc, List.getElem?_append_left (by simp; omega), List.getElem?_take, if_pos hlow]
      · have htake : (image.take start).length = start := by simp; omega
        rw [List.getElem?_append_right (by simp; omega), List.getElem?_drop, List.length_append, htake]
        congr 1
        omega
  · rfl

theorem length_setColumns (start : Nat) (cols image : List Column) : (setColumns start cols image).length = image.length := by
  unfold setColumns
  simp
  omega

theorem shows_dark (s : State) : Shows s [] (darkImage s.geometry) := by
  refine ⟨by simp [darkImage, State.columns], fun x c hc => .inr ⟨?_, by simp⟩⟩
  exact List.eq_of_mem_replicate (List.mem_of_getElem? hc)

/-- A run of columns set into an image shows, and what the image showed before shows beside it. -/
theorem Shows.set {s : State} {fields : List (Nat × List Column)} {image : List Column} (h : Shows s fields image)
    (start : Nat) (cols : List Column) : Shows s ((start, cols) :: fields) (setColumns start cols image) := by
  obtain ⟨hlen, hshown⟩ := h
  refine ⟨(length_setColumns ..).trans hlen, fun x c hc => ?_⟩
  rw [getElem?_setColumns] at hc
  split at hc
  · split at hc
    · next hin => exact .inl ⟨_, List.mem_cons_self .., hin.1, hc⟩
    · next hout =>
      rcases hshown x c hc with ⟨g, hg, hfield⟩ | ⟨hdark, hnone⟩
      · exact .inl ⟨g, List.mem_cons_of_mem _ hg, hfield⟩
      · exact .inr ⟨hdark, List.forall_mem_cons.2 ⟨hout, hnone⟩⟩
  · cases hc

theorem Shows.congr {s : State} {fields others : List (Nat × List Column)} {image : List Column} (h : Shows s fields image)
    (hmem : ∀ f, f ∈ fields ↔ f ∈ others) : Shows s others image := by
  simpa only [Shows, hmem] using h

theorem centredText_shows (s : State) (f : Font) (t : Text) : Shows s [(centre s f t, textColumns f t)] (centredText s f t) := by
  have hstart : centredStart 0 s.columns (textWidth f t) = centre s f t := Nat.zero_add _
  unfold centredText
  rw [hstart]
  exact (shows_dark s).set _ _

theorem stripWindow_windowOf (s : State) (strip : List Column) (offset : Int) :
    WindowOf s strip offset (stripWindow s.geometry strip offset) := by
  refine ⟨by simp [stripWindow, State.columns], fun x c hc => ?_⟩
  simp only [stripWindow, List.getElem?_map, Option.map_eq_some_iff] at hc
  obtain ⟨y, hy, rfl⟩ := hc
  obtain ⟨-, rfl⟩ := List.getElem?_eq_some_iff.1 hy
  simp only [List.getElem_range]
  by_cases h : 0 ≤ (x : Int) + offset
  · rw [if_neg (by omega), if_pos h]
  · rw [if_pos (by omega), if_neg h]

end Sys2Proof.Machine

/-! SUPPORT for O54. The status text is the first of R46's tests that applies, and the destination the first step of the fallback
chain that fits; each lies within its field. -/

namespace Sys2Proof.Machine

/-! ### Numbers in texts -/

theorem glyphWidth_digit (n : Nat) : glyphWidth .large (digitGlyph n) = 6 := by
  have digits : ∀ k < 10, glyphWidth .large (BitVec.ofNat 8 (48 + k)) = 6 := by decide
  exact digits _ (Nat.mod_lt _ (by decide))

theorem textWidth_decimalText_le (n : Nat) : textWidth .large (decimalText n) ≤ 13 := by
  unfold decimalText
  split <;> simp [textWidth, glyphWidth_digit]

theorem textWidth_clockText (minute : Nat) : textWidth .large (clockText minute) = 30 := by
  have hcolon : glyphWidth .large 58#8 = 2 := rfl
  simp [clockText, textWidth, glyphWidth_digit, hcolon]

theorem digitGlyph_of_lt {n : Nat} (h : n < 10) : digitGlyph n = BitVec.ofNat 8 (0x30 + n) := by
  rw [digitGlyph, Nat.mod_eq_of_lt h]

theorem digits_eq_twoDigits {n : Nat} (h : n < 100) : [digitGlyph (n / 10), digitGlyph n] = twoDigits n := by
  rw [digitGlyph_of_lt (by omega)]
  rfl

theorem decimalText_eq {n : Nat} (h : n < 100) : decimalText n = plainNumber n := by
  unfold decimalText plainNumber
  split
  · next hn => rw [digitGlyph_of_lt hn]
  · exact digits_eq_twoDigits h

theorem clockText_eq {minute : Nat} (h : minute < 1440) : clockText minute = hhmm minute := by
  rw [hhmm, ← digits_eq_twoDigits (by omega), ← digits_eq_twoDigits (by omega)]
  rfl

theorem clockText_displayed (s : State) (m : Int) : clockText (displayedMinute s.settings.origin m) = printed s m :=
  clockText_eq (by unfold displayedMinute; omega)

/-! ### The status text -/

theorem exists_delay_iff (p : Int → Prop) (hp : ¬ p 0) (delay : Option Int) : (∃ d ∈ delay, p d) ↔ p (delay.getD 0) := by
  cases delay with
  | none => simpa using hp
  | some d => simp

/-- The status test that `statusText` gives is the first that applies, with its words (R46). -/
theorem statusText_is {s : State} (hset : SettingsOK s.settings) (r : Record) :
    StatusIs s r (statusText s r).1 (statusText s r).2 := by
  obtain ⟨-, -, -, -, -, hcount, ⟨hlate, -⟩, ⟨hhorizon, -⟩, -⟩ := hset
  have test0 : ¬ StatusTest s r 0 := by simp [StatusTest]
  have test1 : StatusTest s r 1 ↔ (!r.isLive) = true := by simp [StatusTest, Record.isLive]
  have test2 : StatusTest s r 2 ↔ r.state = .cancelled := by simp [StatusTest]
  have test3 : StatusTest s r 3 ↔ (decide (r.state = .unknownDelay) || (decide (r.state = .estimated) &&
      decide ((s.settings.horizon : Int) < r.delay.getD 0))) = true := by
    have beyond := exists_delay_iff (fun d => (s.settings.horizon : Int) < d) (by omega) r.delay
    simp only [Bool.or_eq_true, Bool.and_eq_true, decide_eq_true_eq, ← beyond]
    simp [StatusTest]
  have test4 : StatusTest s r 4 ↔ (decide (0 < s.settings.countdown) && s.time.valid &&
      decide (orderKey r - s.time.now ≤ s.settings.countdown)) = true := by
    simp [StatusTest, and_assoc]
  have test5 : StatusTest s r 5 ↔ (decide (r.state = .estimated) &&
      decide ((s.settings.lateThreshold : Int) ≤ r.delay.getD 0)) = true := by
    have late := exists_delay_iff (fun d => (s.settings.lateThreshold : Int) ≤ d) (by omega) r.delay
    simp only [Bool.and_eq_true, decide_eq_true_eq, ← late]
    simp [StatusTest]
  have test6 : StatusTest s r 6 := by simp [StatusTest]
  unfold statusText
  dsimp only
  split
  · next h1 =>
    refine ⟨⟨by omega, by omega⟩, test1.2 h1, fun m hm => ?_, by simp [StatusWords]⟩
    interval_cases m
    exact test0
  · next h1 =>
    split
    · next h2 =>
      refine ⟨⟨by omega, by omega⟩, test2.2 h2, fun m hm => ?_, by simp [StatusWords]⟩
      interval_cases m
      exacts [test0, h1 ∘ test1.1]
    · next h2 =>
      split
      · next h3 =>
        refine ⟨⟨by omega, by omega⟩, test3.2 h3, fun m hm => ?_, by simp [StatusWords]⟩
        interval_cases m
        exacts [test0, h1 ∘ test1.1, h2 ∘ test2.1]
      · next h3 =>
        split
        · next h4 =>
          refine ⟨⟨by omega, by omega⟩, test4.2 h4, fun m hm => ?_, ?_⟩
          · interval_cases m
            exacts [test0, h1 ∘ test1.1, h2 ∘ test2.1, h3 ∘ test3.1]
          · have hsoon : orderKey r - s.time.now ≤ s.settings.countdown := by
              simp only [Bool.and_eq_true, decide_eq_true_eq] at h4
              exact h4.2
            have hdue : orderKey r - s.time.now ≤ 0 ↔ orderKey r ≤ s.time.now := by omega
            rw [decimalText_eq (by omega)]
            simp [StatusWords, hdue]
        · next h4 =>
          split
          · next h5 =>
            refine ⟨⟨by omega, by omega⟩, test5.2 h5, fun m hm => ?_, by simp [StatusWords, clockText_displayed]⟩
            interval_cases m
            exacts [test0, h1 ∘ test1.1, h2 ∘ test2.1, h3 ∘ test3.1, h4 ∘ test4.1]
          · next h5 =>
            refine ⟨⟨by omega, by omega⟩, test6, fun m hm => ?_, by simp [StatusWords]⟩
            interval_cases m
            exacts [test0, h1 ∘ test1.1, h2 ∘ test2.1, h3 ∘ test3.1, h4 ∘ test4.1, h5 ∘ test5.1]

/-- The status text lies within its field of 56 columns (R106). -/
theorem statusText_fits (s : State) (r : Record) : textWidth .large (statusText s r).2 ≤ 56 := by
  have minutes (n : Nat) : textWidth .large (decimalText n ++ glyphs " min") ≤ 56 := by
    have hne : decimalText n ≠ [] := by unfold decimalText; split <;> simp
    have := textWidth_decimalText_le n
    have hword : textWidth .large (glyphs " min") = 24 := by decide
    rw [textWidth_append _ hne (by decide), hword]
    omega
  have expected (n : Nat) : textWidth .large (glyphs "Exp " ++ clockText n) ≤ 56 := by
    have hword : textWidth .large (glyphs "Exp ") = 25 := by decide
    rw [textWidth_append _ (by decide) (by simp [clockText]), hword, textWidth_clockText]
  unfold statusText
  dsimp only
  split_ifs
  · decide
  · decide
  · decide
  · decide
  · decide
  · exact minutes _
  · exact expected _
  · decide

/-! ### The destination -/

theorem withVia_is (size : Nat) (name : Text) (via : Option Text) :
    NameWithVia size name via (withVia size name via).1 (withVia size name via).2 := by
  unfold NameWithVia
  cases via with
  | none => simp [withVia]
  | some v =>
    by_cases h : textWidth .large (name ++ glyphs " via " ++ v) ≤ size
    · rw [show withVia size name (some v) = (true, name ++ glyphs " via " ++ v) from if_pos h]
      exact ⟨fun _ hv _ => by cases hv; exact ⟨rfl, rfl⟩, fun hnone => absurd (hnone v rfl) (Nat.not_lt.2 h)⟩
    · rw [show withVia size name (some v) = (false, name) from if_neg h]
      exact ⟨fun _ hv hfits => by cases hv; exact absurd hfits h, fun _ => ⟨rfl, rfl⟩⟩

theorem withVia_fits {size : Nat} {name : Text} (via : Option Text) (h : textWidth .large name ≤ size) :
    textWidth .large (withVia size name via).2 ≤ size := by
  unfold withVia
  split
  · exact h
  · dsimp only
    split
    · assumption
    · exact h

/-- The form `CutAt` describes is the prefix with its end spaces dropped (R110). -/
theorem cutAt_iff (name : Text) (k : Nat) (cut : Text) : CutAt name k cut ↔ cut = dropSpaces (name.take k) := by
  constructor
  · rintro ⟨spaces, htake, hspaces, hlast⟩
    have hcut : dropSpaces cut = cut := by
      refine List.rdropWhile_eq_self_iff.2 fun hne hspace => hlast ?_
      rw [List.getLast?_eq_some_getLast hne]
      exact congrArg some (eq_of_beq hspace)
    rw [htake, dropSpaces, List.reverse_append, List.dropWhile_append_of_pos fun b hb => by
      simp [hspaces b (List.mem_reverse.1 hb), spaceGlyph]]
    exact hcut.symm
  · rintro rfl
    refine ⟨(name.take k).rtakeWhile (fun b => b == spaceGlyph), List.rdropWhile_append_rtakeWhile.symm,
      fun b hb => eq_of_beq (List.mem_rtakeWhile_imp (p := fun b => b == spaceGlyph) hb), fun hlast => ?_⟩
    have hne : dropSpaces (name.take k) ≠ [] := by
      intro hnil
      simp [hnil] at hlast
    rw [List.getLast?_eq_some_getLast hne, Option.some_inj] at hlast
    exact List.rdropWhile_last_not (fun b => b == spaceGlyph) (name.take k) hne (by
      rw [show (List.rdropWhile (fun b => b == spaceGlyph) (name.take k)).getLast hne = 0x20 from hlast]; rfl)

theorem cutName_fits {f : Font} {size : Nat} (hsize : 5 ≤ size) (name : Text) (k : Nat) :
    textWidth f (cutName f size name k) ≤ size := by
  induction k with
  | zero =>
    have hdots : textWidth f dots ≤ 5 := by cases f <;> decide
    exact hdots.trans hsize
  | succ k ih =>
    unfold cutName
    dsimp only
    split
    · next h =>
      simp only [Bool.and_eq_true, decide_eq_true_eq] at h
      exact h.2
    · exact ih

/-- The cut form is that of the longest prefix that fits, or the dots alone (R110). -/
theorem cutName_is (f : Font) (size : Nat) (name : Text) {most : Nat} (hmost : most < name.length ∨ most = 0)
    (hlong : ∀ j other, most < j → j < name.length → CutAt name j other → ¬ CutFits f size other) :
    Truncation f size name (cutName f size name most) := by
  induction most with
  | zero => exact .inr ⟨rfl, fun j other hj => hlong j other hj⟩
  | succ k ih =>
    have hcond : (!(dropSpaces (name.take (k + 1))).isEmpty &&
        decide (textWidth f (dropSpaces (name.take (k + 1)) ++ dots) ≤ size)) = true ↔
        CutFits f size (dropSpaces (name.take (k + 1))) := by
      rw [Bool.and_eq_true, decide_eq_true_iff]
      simp [CutFits, dots]
    unfold cutName
    dsimp only
    split
    · next h =>
      exact .inl ⟨k + 1, _, by omega, by omega, (cutAt_iff ..).2 rfl, hcond.1 h, rfl, hlong⟩
    · next h =>
      refine ih (by omega) fun j other hj hlen hcut => ?_
      rcases Nat.eq_or_lt_of_le hj with rfl | hj
      · rw [(cutAt_iff ..).1 hcut]
        exact fun hfits => h (hcond.2 hfits)
      · exact hlong j other hj hlen hcut

theorem truncated_is {size : Nat} {small : Bool} {e : PlaceEntry} (via : Option PlaceEntry) {name : Text}
    (hname : e.short.getD e.full = name) (hnone : ∀ step < 5, ¬ StepFits size small e step) :
    DestinationIs size small e via (truncated size small name) := by
  subst hname
  refine ⟨⟨by simp [truncated], by simp [truncated]⟩, hnone, nofun, nofun, nofun, nofun, nofun, fun _ => ⟨rfl, rfl, ?_⟩⟩
  exact cutName_is _ _ _ (by omega) fun j _ hj hlen => by omega

/-- The destination is the first step of the fallback chain that fits (R108 to R110). -/
theorem destinationText_is (size : Nat) (small : Bool) (e : PlaceEntry) (via : Option PlaceEntry) :
    DestinationIs size small e via (destinationText size small e via) := by
  have no0 : ¬ StepFits size small e 0 := by simp [StepFits]
  have fit1 : StepFits size small e 1 ↔ textWidth .large e.full ≤ size := by simp [StepFits]
  have fit3 : StepFits size small e 3 ↔ (small && decide (textWidth .small e.full ≤ size)) = true := by simp [StepFits]
  unfold destinationText
  split
  · next h1 =>
    refine ⟨⟨by simp, by simp⟩, fun step hstep => ?_, fun _ => fit1.2 h1, fun _ => ⟨rfl, withVia_is ..⟩, nofun, nofun, nofun,
      nofun⟩
    have : step < 1 := hstep
    interval_cases step
    exact no0
  · next h1 =>
    split
    · next hshort =>
      have no2 : ¬ StepFits size small e 2 := by simp [StepFits, hshort]
      have no4 : ¬ StepFits size small e 4 := by simp [StepFits, hshort]
      split
      · next h3 =>
        refine ⟨⟨by simp, by simp⟩, fun step hstep => ?_, fun _ => fit3.2 h3, nofun, nofun, fun _ => ⟨rfl, rfl, rfl⟩, nofun,
          nofun⟩
        have : step < 3 := hstep
        interval_cases step
        exacts [no0, h1 ∘ fit1.1, no2]
      · next h3 =>
        refine truncated_is via (by rw [hshort]; rfl) fun step hstep => ?_
        interval_cases step
        exacts [no0, h1 ∘ fit1.1, no2, h3 ∘ fit3.1, no4]
    · next short hshort =>
      have fit2 : StepFits size small e 2 ↔ textWidth .large short ≤ size := by simp [StepFits, hshort]
      have fit4 : StepFits size small e 4 ↔ (small && decide (textWidth .small short ≤ size)) = true := by
        simp [StepFits, hshort]
      split
      · next h2 =>
        refine ⟨⟨by simp, by simp⟩, fun step hstep => ?_, fun _ => fit2.2 h2, nofun,
          fun _ => ⟨rfl, short, hshort, withVia_is ..⟩, nofun, nofun, nofun⟩
        have : step < 2 := hstep
        interval_cases step
        exacts [no0, h1 ∘ fit1.1]
      · next h2 =>
        split
        · next h3 =>
          refine ⟨⟨by simp, by simp⟩, fun step hstep => ?_, fun _ => fit3.2 h3, nofun, nofun, fun _ => ⟨rfl, rfl, rfl⟩,
            nofun, nofun⟩
          have : step < 3 := hstep
          interval_cases step
          exacts [no0, h1 ∘ fit1.1, h2 ∘ fit2.1]
        · next h3 =>
          split
          · next h4 =>
            refine ⟨⟨by simp, by simp⟩, fun step hstep => ?_, fun _ => fit4.2 h4, nofun, nofun, nofun,
              fun _ => ⟨rfl, rfl, by rw [hshort]; rfl⟩, nofun⟩
            have : step < 4 := hstep
            interval_cases step
            exacts [no0, h1 ∘ fit1.1, h2 ∘ fit2.1, h3 ∘ fit3.1]
          · next h4 =>
            refine truncated_is via (by rw [hshort]; rfl) fun step hstep => ?_
            interval_cases step
            exacts [no0, h1 ∘ fit1.1, h2 ∘ fit2.1, h3 ∘ fit3.1, h4 ∘ fit4.1]

/-- The destination lies within its field, as the dots do in the least field (R110). -/
theorem destinationText_fits {size : Nat} (hsize : 5 ≤ size) (small : Bool) (e : PlaceEntry) (via : Option PlaceEntry) :
    textWidth (destinationText size small e via).font (destinationText size small e via).text ≤ size := by
  have within {t : Text} (h : (small && decide (textWidth .small t ≤ size)) = true) : textWidth .small t ≤ size := by
    simp only [Bool.and_eq_true, decide_eq_true_eq] at h
    exact h.2
  unfold destinationText
  split
  · next h1 => exact withVia_fits _ h1
  · split
    · split
      · next h3 => exact within h3
      · exact cutName_fits hsize _ _
    · split
      · next h2 => exact withVia_fits _ h2
      · split
        · next h3 => exact within h3
        · split
          · next h4 => exact within h4
          · exact cutName_fits hsize _ _

end Sys2Proof.Machine

/-! SUPPORT for O54. The calling text: its list of stops in words, the train sentence, and the reductions that bring it within the
strip cap. -/

namespace Sys2Proof.Machine

/-! ### The words -/

theorem placeEntry_of_holds {d : Directory} {place : Nat} {e : PlaceEntry} (h : Holds d place e) : placeEntry d place = e := by
  rw [placeEntry, h]
  rfl

theorem stopText_of_holds {d : Directory} {st : Stop} {e : PlaceEntry} (short : Bool) (h : Holds d st.place e) :
    stopText d short st = stopWords short st e := by
  rw [stopText, placeEntry_of_holds h]
  rfl

theorem paintedStops_are {d : Directory} {r : Record} (short : Bool) (h : ∀ st ∈ r.stops, ∃ e, Holds d st.place e) :
    StopsAre d short r ((paintedStops r).map (stopText d short)) := by
  refine List.forall₂_map_right_iff.2 (List.forall₂_same.2 fun st hst => ?_)
  obtain ⟨e, he⟩ := h st (List.mem_filter.1 hst).1
  exact ⟨e, he, stopText_of_holds short he⟩

/-- Stops joined one by one are the stops but the last, with commas between, and the last after "and" (R111). -/
theorem joinStops_eq (a b : Text) (rest : List Text) : joinStops a (b :: rest) =
    (List.intersperse (glyphs ", ") (a :: b :: rest).dropLast).flatten ++ glyphs " and " ++
      (a :: b :: rest).getLast (by simp) := by
  induction rest generalizing a b with
  | nil => simp [joinStops]
  | cons c r ih => simp [joinStops, ih]

theorem listPart_eq (words : List Text) : listPart words = callingList words := by
  cases words with
  | nil => rfl
  | cons w rest =>
    cases rest with
    | nil => rfl
    | cons v rest => simp only [listPart, callingList, joinStops_eq, List.append_assoc]

theorem callingList_isEmpty (words : List Text) : (callingList words).isEmpty = true ↔ words = [] := by
  cases words with
  | nil => simp [callingList]
  | cons w rest => cases rest <;> simp [callingList, glyphs]

theorem withTrain_eq (words : List Text) {train : Option Nat} (h : ∀ n ∈ train, n ≤ 16) :
    withTrain (callingList words) train = callingWords words train := by
  cases train with
  | none => rfl
  | some n =>
    have hn : n ≤ 16 := h n rfl
    simp only [withTrain, callingWords, trainSentence, callingList_isEmpty, decimalText_eq (show n < 100 by omega)]
    split <;> simp

/-! ### The cut list -/

theorem cutCount_le (words : List Text) (k : Nat) : cutCount words k ≤ k := by
  induction k with
  | zero => exact Nat.le_refl 0
  | succ k ih =>
    unfold cutCount
    split
    · exact Nat.le_refl _
    · omega

theorem cutCount_withinCap (words : List Text) (k : Nat) : WithinCap (cutWords words (cutCount words k)) := by
  induction k with
  | zero =>
    show textWidth .large (glyphs "Calling at: " ++ [] ++ glyphs " and more.") ≤ 4096
    decide
  | succ k ih =>
    unfold cutCount
    split
    · assumption
    · exact ih

theorem cutCount_longest (words : List Text) (k : Nat) :
    ∀ j, cutCount words k < j → j ≤ k → ¬ WithinCap (cutWords words j) := by
  induction k with
  | zero => intro j hlow hhigh; omega
  | succ k ih =>
    intro j hlow hhigh
    unfold cutCount at hlow
    split at hlow
    · omega
    · next hwide =>
      rcases Nat.eq_or_lt_of_le hhigh with rfl | hj
      · exact hwide
      · exact ih j hlow (by omega)

theorem stopWords_length {st : Stop} {e : PlaceEntry} (short : Bool) (h : EntryInRange e) : (stopWords short st e).length ≤ 36 := by
  obtain ⟨⟨⟨-, hfull⟩, -⟩, hshort, -⟩ := h
  have hname : (if short = true then e.short.getD e.full else e.full).length ≤ 32 := by
    split
    · cases hs : e.short with
      | none => exact hfull
      | some t =>
        obtain ⟨⟨-, ht⟩, -⟩ := hshort t hs
        exact ht.trans (by decide)
    · exact hfull
  have hsuffix : (if st.request = true then glyphs " (r)" else []).length ≤ 4 := by
    split
    · decide
    · simp
  rw [stopWords, List.length_append]
  omega

/-- One stop always fits the strip with the words that end a cut list (R115). -/
theorem cutWords_one {words : List Text} (h : ∀ w ∈ words, w.length ≤ 36) : WithinCap (cutWords words 1) := by
  have hlen : (cutWords words 1).length ≤ 58 := by
    have hcalling : (glyphs "Calling at: ").length = 12 := by decide
    have hmore : (glyphs " and more.").length = 10 := by decide
    cases words with
    | nil => simp [cutWords, hcalling, hmore]
    | cons w rest =>
      have := h w (List.mem_cons_self ..)
      simp [cutWords, hcalling, hmore]
      omega
  exact (textWidth_le _).trans (by omega)

/-- A list of no stop or one fits the strip (R113). -/
theorem callingList_short {words : List Text} (h : ∀ w ∈ words, w.length ≤ 36) (hone : words.length ≤ 1) :
    WithinCap (callingList words) := by
  match words with
  | [] => exact Nat.zero_le _
  | [w] =>
    have hcalling : (glyphs "Calling at: ").length = 12 := by decide
    have honly : (glyphs " only.").length = 6 := by decide
    have hw := h w (List.mem_cons_self ..)
    have hlen : (callingList [w]).length ≤ 54 := by
      simp [callingList, hcalling, honly]
      omega
    exact (textWidth_le _).trans (by omega)
  | _ :: _ :: _ => simp at hone

/-! ### The calling text -/

theorem callingText_fits (d : Directory) (r : Record) : textWidth .large (callingText d r).text ≤ 4096 := by
  unfold callingText
  split
  · decide
  · split
    · exact Nat.zero_le _
    · dsimp only
      split
      · assumption
      · split
        · assumption
        · split
          · assumption
          · exact cutCount_withinCap _ _

theorem callingText_reduced {d : Directory} {r : Record} (hlive : r.life = .live) (hstate : r.state ≠ .cancelled)
    (hstops : ∀ st ∈ r.stops, ∃ e, Holds d st.place e ∧ EntryInRange e) (htrain : ∀ n ∈ r.train, n ≤ 16) :
    CallingReduced ((paintedStops r).map (stopText d false)) ((paintedStops r).map (stopText d true)) r.train
      (callingText d r) := by
  have hlive' : ¬ (!r.isLive) = true := by simp [Record.isLive, hlive]
  unfold callingText
  rw [if_neg hstate, if_neg hlive']
  simp only [listPart_eq, withTrain_eq _ htrain]
  generalize hnames : (paintedStops r).map (stopText d true) = names
  have hcount : names.length = (paintedStops r).length := by rw [← hnames, List.length_map]
  have hwords : ∀ w ∈ names, w.length ≤ 36 := by
    intro w hw
    rw [← hnames] at hw
    obtain ⟨st, hst, rfl⟩ := List.mem_map.1 hw
    obtain ⟨e, he, hrange⟩ := hstops st (List.mem_filter.1 hst).1
    rw [stopText_of_holds true he]
    exact stopWords_length true hrange
  rw [← hcount]
  split
  · next hfull => exact ⟨fun _ => by rw [List.length_map, hcount], fun hwide => absurd hfull hwide⟩
  · next hfull =>
    refine ⟨fun hfits => absurd hfits hfull, fun _ => ?_⟩
    split
    · next hshort => exact ⟨fun _ => rfl, fun hwide => absurd hshort hwide⟩
    · next hshort =>
      refine ⟨fun hfits => absurd hfits hshort, fun _ => ?_⟩
      split
      · next hlist => exact ⟨fun _ => rfl, fun hwide => absurd hlist hwide⟩
      · next hlist =>
        have htwo : 1 < names.length := Nat.lt_of_not_le fun hone => hlist (callingList_short hwords hone)
        refine ⟨fun hfits => absurd hfits hlist, fun _ => ⟨rfl, rfl, ⟨?_, ?_⟩, cutCount_withinCap _ _, ?_⟩⟩
        · have one := cutCount_longest names (names.length - 1) 1
          exact Nat.le_of_not_lt fun hnone => one hnone (by omega) (cutWords_one hwords)
        · have := cutCount_le names (names.length - 1)
          dsimp only
          omega
        · exact fun k hlow hhigh => cutCount_longest names _ k hlow (by omega)

/-- The calling text is as R111 to R115 give it. -/
theorem callingText_is {d : Directory} {r : Record} (hstops : ∀ st ∈ r.stops, ∃ e, Holds d st.place e ∧ EntryInRange e)
    (htrain : ∀ n ∈ r.train, n ≤ 16) : CallingIs d r (callingText d r) := by
  have hheld : ∀ st ∈ r.stops, ∃ e, Holds d st.place e := fun st hst => (hstops st hst).imp fun _ h => h.1
  refine ⟨fun hstate => if_pos hstate, fun hstate hlife => ?_, fun hstate hlive => ?_⟩
  · rw [callingText, if_neg hstate, if_pos (by simp [Record.isLive, hlife])]
  · exact ⟨_, _, paintedStops_are false hheld, paintedStops_are true hheld,
      callingText_reduced hlive hstate hstops htrain⟩

end Sys2Proof.Machine

/-! The lines a compose makes, by board state. Settles O54. -/

namespace Sys2Proof.Machine

/-! ### Boards and records -/

theorem columns_bounds (s : State) : 192 ≤ s.columns := by
  unfold State.columns boardWidth
  split <;> decide

theorem recordAt_of_position {s : State} {position : Nat} {r : Record} (h : RecordAtPosition s position r) :
    recordAt s position = some r := by
  obtain ⟨key, hkey, hrecord⟩ := h
  rw [recordAt, hkey]
  exact hrecord

theorem recordAt_none {s : State} {position : Nat} (h : s.table.order.length ≤ position) : recordAt s position = none := by
  rw [recordAt, List.getElem?_eq_none h]

theorem platformField_iff (s : State) : platformField s = true ↔ PlatformShown s := by
  simp [platformField, PlatformShown]

/-! ### Still lines and texts on a line of their own -/

theorem composeBlank_still (s : State) : StillLine s [] .blank (composeBlank s) := ⟨shows_dark s, rfl, rfl⟩

theorem composeClock_unset {s : State} (h : s.time.valid = false) :
    StillLine s [(centre s .large (glyphs "--:--"), textColumns .large (glyphs "--:--"))] (.clock none) (composeClock s) := by
  rw [composeClock, if_neg (by simp [h])]
  exact ⟨centredText_shows .., rfl, rfl⟩

theorem composeClock_set {s : State} (h : s.time.valid = true) (hminute : s.time.minute < 1440) :
    StillLine s [(centre s .large (hhmm s.time.minute), textColumns .large (hhmm s.time.minute))]
      (.clock (some s.time.minute)) (composeClock s) := by
  rw [composeClock, if_pos h, clockText_eq hminute]
  exact ⟨centredText_shows .., rfl, rfl⟩

theorem composeText_composed (s : State) (start : Nat) (t : Text) (layout : LineMode → LayoutRecord) :
    TextComposed s start t layout (composeText s start t layout) := by
  unfold composeText
  refine ⟨fun h => ?_, fun h => ?_⟩
  · rw [if_pos h]
    exact ⟨(shows_dark s).set _ _, rfl, rfl⟩
  · rw [if_neg (Nat.not_le.2 h)]
    exact ⟨stripWindow_windowOf .., rfl, rfl⟩

theorem composeBanner_composed (s : State) (b : Banner) : TextComposed s (centre s .large b.text) b.text
    (fun mode => .banner (textWidth .large b.text) mode) (composeBanner s b) := by
  have hstart : centredStart 0 s.columns (textWidth .large b.text) = centre s .large b.text := Nat.zero_add _
  rw [composeBanner, hstart]
  exact composeText_composed ..

/-- The words of a screen text (R119, R157). -/
def screenWords : ScreenText → Text
  | .listen => glyphs "Please listen for announcements"
  | .follow => glyphs "Please follow staff instructions"

theorem composeScreen_composed (s : State) (which : ScreenText) :
    ScreenComposed s which (screenWords which) (composeScreen s which) := by
  have heq : composeScreen s which =
      if textWidth .large (screenWords which) ≤ s.columns then
        { image := centredText s .large (screenWords which), layout := .screen which .large, strip := none }
      else { image := centredText s .small (screenWords which), layout := .screen which .small, strip := none } := by
    cases which <;> rfl
  rw [heq]
  refine ⟨fun h => ?_, fun h => ?_⟩
  · rw [if_pos h]
    exact ⟨centredText_shows .., rfl, rfl⟩
  · rw [if_neg (Nat.not_le.2 h)]
    exact ⟨centredText_shows .., rfl, rfl⟩

/-! ### The departure line -/

/-- Two glyphs of a platform code always fit its field, so that a cut code is the longest that fits (R105). -/
theorem textWidth_take_two (t : Text) : textWidth .large (t.take 2) ≤ 20 := by
  refine (textWidth_le _).trans ?_
  have : (t.take 2).length ≤ 2 := by simp
  omega

theorem setPlatform_is (s : State) {code : Text} (hcode : PlatformCode code) (image : List Column) :
    ∃ f t start, PlatformSet s code (setPlatform s code image).1 f t start ∧
      (setPlatform s code image).2 = setColumns start (textColumns f t) image := by
  obtain ⟨⟨-, hthree⟩, -⟩ := hcode
  unfold setPlatform
  dsimp only
  split
  · next hlarge =>
    exact ⟨.large, code, _, ⟨fun _ => ⟨rfl, rfl, rfl, rfl⟩, fun hwide => absurd hlarge (by omega),
      fun hwide => absurd hlarge (by omega)⟩, rfl⟩
  · next hwide =>
    split
    · next hsmall =>
      exact ⟨.small, code, _, ⟨fun hfits => absurd hfits hwide, fun _ _ => ⟨rfl, rfl, rfl, rfl⟩,
        fun _ hoff => absurd (hsmall.symm.trans hoff) (by decide)⟩, rfl⟩
    · next hsmall =>
      rw [if_pos (textWidth_take_two code)]
      refine ⟨.large, code.take 2, _, ⟨fun hfits => absurd hfits hwide, fun _ hon => absurd hon hsmall,
        fun _ _ => ⟨rfl, rfl, rfl, 2, rfl, textWidth_take_two code, fun j hj hlen => ?_⟩⟩, rfl⟩
      rw [List.take_of_length_le (by omega)]
      omega

/-- The departure line: time, destination and status, and the platform where it has a field (R103 to R107). -/
theorem composeDeparture_composed {s : State} (hset : SettingsOK s.settings) {r : Record} {e : PlaceEntry}
    {via : Option PlaceEntry} (hcode : PlatformCode r.platform) (he : placeEntry s.dir r.destination = e)
    (hvia : r.via.map (placeEntry s.dir) = via) : DepartureComposed s r e via (composeDeparture s r) := by
  have hright : rightStart (s.columns - 56) 56 (textWidth .large (statusText s r).2) =
      s.columns - textWidth .large (statusText s r).2 := by
    have := columns_bounds s
    unfold rightStart
    omega
  unfold composeDeparture
  dsimp only
  rw [he, hvia, clockText_displayed, hright]
  generalize hdest : destinationText (destinationWidth s) s.settings.smallFont e via = d
  have his : DestinationIs (destinationWidth s) s.settings.smallFont e via d := hdest ▸ destinationText_is ..
  have hfields : Shows s (departureFields s r d (statusText s r).2)
      (setText .large (s.columns - textWidth .large (statusText s r).2) (statusText s r).2
        (setText d.font 36 d.text (setText .large 0 (printed s r.scheduled) (darkImage s.geometry)))) :=
    Shows.congr ((((shows_dark s).set _ _).set _ _).set _ _) fun _ =>
      List.mem_reverse (as := departureFields s r d (statusText s r).2)
  refine ⟨d, _, _, statusText_is hset r, fun hshown => ?_, fun hshown => ?_⟩
  · have hfield : platformField s = true := (platformField_iff s).2 hshown
    rw [destinationWidth, if_pos hfield] at his
    rw [if_pos hfield]
    obtain ⟨f, t, start, hplatform, himage⟩ := setPlatform_is s hcode _
    exact ⟨his, _, f, t, start, hplatform, himage ▸ hfields.set start (textColumns f t), rfl, rfl⟩
  · have hfield : ¬ platformField s = true := fun h => hshown ((platformField_iff s).1 h)
    rw [destinationWidth, if_neg hfield] at his
    rw [if_neg hfield]
    exact ⟨his, hfields, rfl, rfl⟩

/-! ### The lines of TABLE -/

theorem composeTable_record {s : State} {line : Nat} {r : Record} (hboard : s.board = .showing)
    (hr : recordAt s (line - 1) = some r) :
    composeTable s line = if line = 1 then composeCalling s r else composeDeparture s r := by
  unfold composeTable
  rw [hboard]
  dsimp only
  split
  · next hline =>
    subst hline
    rw [show recordAt s 0 = some r from hr]
  · rw [positionOfLine, hr]

theorem composeTable_none {s : State} {line : Nat} (hboard : s.board = .showing) (hr : recordAt s (line - 1) = none) :
    composeTable s line = if line = 0 then composeEmpty s else composeBlank s := by
  unfold composeTable
  rw [hboard]
  dsimp only
  split
  · next hline =>
    subst hline
    rw [show recordAt s 0 = none from hr]
    rfl
  · rw [positionOfLine, hr]

theorem composeTable_blank {s : State} {line : Nat} (hboard : s.board ≠ .showing)
    (hline : line ≠ 0 ∨ (s.board ≠ .unavailable ∧ s.board ≠ .alert)) : composeTable s line = composeBlank s := by
  unfold composeTable
  cases hb : s.board with
  | showing => exact absurd hb hboard
  | unavailable => exact if_neg (hline.resolve_right fun h => h.1 hb)
  | alert => exact if_neg (hline.resolve_right fun h => h.2 hb)
  | starting | closed | dark => rfl

/-- The line TABLE composes is that of the record at its position, the empty-board text, a screen text or blank, by the board
state (R97, R104, R113, R116, R119, R131, R156). -/
theorem composeTable_composed {s : State} (hset : SettingsOK s.settings) (line : Nat) :
    TableLineComposed s line (composeTable s line) := by
  refine ⟨fun hboard => ⟨?_, ?_, ?_, ?_⟩, ?_, ?_, fun hboard hline => ?_⟩
  · rintro r rfl hr hstops htrain
    rw [composeTable_record hboard (recordAt_of_position hr), if_pos rfl]
    exact ⟨_, callingText_is hstops htrain, composeText_composed ..⟩
  · intro r e via hline hr hcode he hnone hsome
    rw [composeTable_record hboard (recordAt_of_position hr), if_neg hline]
    refine composeDeparture_composed hset hcode (placeEntry_of_holds he) ?_
    cases hv : r.via with
    | none => rw [hnone hv]; rfl
    | some p =>
      obtain ⟨v, rfl, hheld⟩ := hsome p hv
      exact congrArg some (placeEntry_of_holds hheld)
  · rintro rfl horder
    rw [composeTable_none hboard (recordAt_none (by simp [horder])), if_pos rfl]
    exact ⟨centredText_shows .., rfl, rfl⟩
  · intro hline horder
    rw [composeTable_none hboard (recordAt_none horder), if_neg hline]
    exact composeBlank_still s
  · rintro hboard rfl
    rw [show composeTable s 0 = composeScreen s .listen by unfold composeTable; rw [hboard]; rfl]
    exact composeScreen_composed s .listen
  · rintro hboard rfl
    rw [show composeTable s 0 = composeScreen s .follow by unfold composeTable; rw [hboard]; rfl]
    exact composeScreen_composed s .follow
  · rw [composeTable_blank hboard hline]
    exact composeBlank_still s

/-- Settles O54, clause by clause: status text, destination, calling text, glyphs, texts, the lines of TABLE, the blank line and
the clock, the banner, and the window of a strip. -/
theorem textsFitTheirFields : Obligations.TextsFitTheirFields := by
  unfold Obligations.TextsFitTheirFields
  exact ⟨fun s r hset => ⟨statusText_fits s r, statusText_is hset r⟩,
    fun size small e via => ⟨destinationText_is .., fun hsize => destinationText_fits hsize ..⟩,
    fun d r => ⟨callingText_fits d r, callingText_is⟩, glyphIs,
    fun f => ⟨rfl, textWidth_nil f, fun c => ⟨rfl, textWidth_single f c⟩, fun _ _ ha hb =>
      ⟨textColumns_append f ha hb, textWidth_append f ha hb⟩⟩,
    fun s line hset => composeTable_composed hset line,
    fun s => ⟨composeBlank_still s, composeClock_unset, composeClock_set⟩, composeBanner_composed, stripWindow_windowOf⟩

end Sys2Proof.Machine

/-! O22, O23. The expiry of the sweep window: what a sweep marks, and the expiry taken whole. -/

namespace Sys2Proof.Machine

/-! ### The marks of a sweep -/

theorem ShownDiffers.ne {a b : Record} (h : ShownDiffers a b) : a ≠ b := by
  rintro rfl
  exact h ⟨rfl, rfl, rfl, rfl, rfl, rfl, rfl, rfl, Iff.rfl⟩

/-- With unique keys, a record found after a sweep is the one its key named before it (R5, R59). -/
theorem findRecord_sweptSlots {key : Nat} {slots : List (Option Record)} {a b : Record}
    (hkeys : ((recordsOf slots).map Record.key).Nodup) (ha : findRecord key slots = some a)
    (hb : findRecord key (sweptSlots slots) = some b) : a = b := by
  obtain ⟨hamem, hakey⟩ := findRecord_some ha
  obtain ⟨hbmem, hbkey⟩ := findRecord_some hb
  have hbold : b ∈ recordsOf slots := by
    rw [← mem_recordsOf, ← keepLive_eq, recordsOf_keepLive] at hbmem
    exact List.mem_of_mem_filter hbmem
  exact List.inj_on_of_nodup_map hkeys (mem_recordsOf.2 hamem) hbold (hakey.trans hbkey.symm)

/-- A sweep changes no content that remains shown, so R25 marks nothing for it (R59, R60). -/
theorem contentMarks_sweptSlots (code : Nat) {slots : List (Option Record)} (order : List Nat)
    (hkeys : ((recordsOf slots).map Record.key).Nodup) : contentMarks code slots (sweptSlots slots) order = [] := by
  refine List.eq_nil_iff_forall_not_mem.2 fun line hline => ?_
  obtain ⟨p, key, a, b, -, -, ha, hb, hdiffers, -⟩ := mem_contentMarks.1 hline
  exact hdiffers.ne (findRecord_sweptSlots hkeys ha hb)

/-- The lines a sweep marks are those of the comparison of orders (R24, R60). -/
theorem sweep_dirty_by_order {s : State} (h : TableInv s) (n : Nat) : n ∈ (sweep s).paint.dirty ↔
    n ∈ orderMarks s.geometry s.table.order (sweep s).table.order ∨ n ∈ s.paint.dirty := by
  obtain ⟨-, hkeys, -, hord, -, -⟩ := h
  rw [sweep_dirty hord, tableMarks, contentMarks_sweptSlots _ _ hkeys, List.append_nil, ← hord, sweep_table, keepLive_eq]

theorem sweep_paint_job (s : State) : (sweep s).paint.job = s.paint.job :=
  (sweep_sameBut s .arbiter (by simp)).1

/-! ### The expiry of an OPEN window -/

theorem windowExpiry_of_open {s : State} (h : s.table.window ≠ .closed) : windowExpiry s = sweep s := by
  unfold windowExpiry
  split
  · next hclosed => exact absurd hclosed h
  · rfl

/-- The command on a running part with an OPEN window: the sweep, taken whole (R59). -/
theorem exec_sweepWindowExpiry {s : State} (hrun : Running s) (hopen : s.table.window ≠ .closed) :
    exec .sweepWindowExpiry s = .next (settle (sweep s)) := by
  rw [← windowExpiry_of_open hopen, ← event_of_running hrun]
  rfl

/-- Settles O22. -/
theorem sweepAtExpiry : Obligations.SweepAtExpiry := by
  intro s hrun hinv hopen
  refine ⟨_, exec_sweepWindowExpiry hrun hopen, ?_, ?_, ?_, fun p hp => ?_, ?_,
    quietlyFramed_marked ((sweep_sameBut s).mono (by simp)) (by simp)⟩
  · rw [settle_table, sweep_table, keepLive_eq]
  · rw [settle_table, sweep_table, keepLive_eq]
  · rw [settle_table, sweep_table]
  · rw [settle_dir_counts]
    exact sweep_counts hinv p hp
  · rw [settle_table]
    exact settle_marked (fun hj => by rwa [sweep_paint_job] at hj) (sweep_dirty_by_order hinv)

/-- Settles O23. -/
theorem expiryWithNothingLeaving : Obligations.ExpiryWithNothingLeaving := by
  intro s hrun hinv hopen hlive
  have hsame : SameBut [.window] s (sweep s) := sweep_of_live hinv hlive
  have hdirty : (sweep s).paint.dirty = s.paint.dirty := hsame .dirty (by simp)
  refine ⟨_, exec_sweepWindowExpiry hrun hopen, ?_, ?_, framedAtRest_settle hsame (by simp [asideParts])⟩
  · rw [settle_table, sweep_table]
  · exact settle_marked (fun hj => by rwa [sweep_paint_job] at hj) fun n => by simp [hdirty]

end Sys2Proof.Machine

/-! SUPPORT. The Place Directory's events taken whole: an answer alone, an operation state the paint suspend request leaves alone,
an abandoned gather, and an erase that starts, resumes or waits for its resumption. -/

namespace Sys2Proof.Machine

/-! ### Answers at an event's end -/

theorem Entered.settle {l : List Entry} {s u : State} (h : Entered l s u) : Entered l s (settle u) :=
  (entered_congr rfl (settle_results u)).1 h

theorem Answered.settle {kind : Byte} {h : Header} {outcome detail : Nat} {s u : State}
    (ha : Answered kind h outcome detail s u) : Answered kind h outcome detail s (settle u) :=
  (answered_congr rfl (settle_results u)).1 ha

/-- An event that comes to one answer and nothing else. -/
theorem settle_answered {kind : Byte} {h : Header} {outcome detail : Nat} {s u : State}
    (hu : u = answer kind h outcome detail s) :
    Answered kind h outcome detail s (settle u) ∧ FramedAtRest [.results] s (settle u) := by
  subst hu
  exact ⟨answered_settle kind h outcome detail s, answer_framed kind h outcome detail s⟩

/-! ### Operation states the suspend request leaves alone -/

/-- An operation state the paint suspend request does not act on (R87). -/
def Unmoved (op : DirOp) : Prop :=
  (∀ e c, op ≠ .erasing e c) ∧ ∀ e c, op ≠ .suspended e c .paint

theorem settle_dir_of_op {u : State} (h : Unmoved u.dir.op) : (settle u).dir = u.dir :=
  settle_dir h.1 h.2

theorem sameBut_settle_of_op {l : List Part} {s u : State} (h : SameBut l s u) (hu : Unmoved u.dir.op) :
    SameBut (l ++ grantParts) s (settle u) :=
  sameBut_settle_grant h hu.1 hu.2

/-- Where an event's end leaves an operation state and marks given by name. -/
theorem dirSettled_of_eq {u : State} {op : DirOp} {marks : List Nat} (hop : u.dir.op = op) (hmarks : u.dir.eraseMarks = marks) :
    DirSettled op marks (settle u) :=
  hop ▸ hmarks ▸ settle_dirSettled u

/-! ### What the operations touch -/

theorem withOp_touches (op : DirOp) (s : State) : SameBut [.dirOp] s (withOp op s) := by
  intro p hp
  cases p with
  | dirOp => simp at hp
  | _ => simp [Part.same, withOp]

theorem abandonGather_touches (s : State) : SameBut [.dirOp, .results] s (abandonGather s) := by
  unfold abandonGather
  split
  · exact ((withOp_touches _ s).mono (by decide)).answerAll (by decide) _ _ _ _
  · exact .refl _ s

theorem withDir_startErasing_touches (e : EraseJob) (c : Current) (s : State) :
    SameBut [.eraseMarks, .dirOp] s (s.withDir (startErasing e c s.dir)) := by
  intro p hp
  cases p with
  | eraseMarks | dirOp => simp at hp
  | _ => simp [Part.same, startErasing]

theorem enterErasing_touches (e : EraseJob) (c : Current) (s : State) :
    SameBut [.eraseMarks, .dirOp] s (enterErasing e c s) := by
  have halt : SameBut [.dirOp] (s.withDir (startErasing e c s.dir))
      (s.withDir { startErasing e c s.dir with op := .suspending e { c with begun := true } .paint [] }) :=
    withOp_touches _ (s.withDir (startErasing e c s.dir))
  unfold enterErasing
  exact sameBut_ite ((withDir_startErasing_touches e c s).within (halt.mono (by decide))) (withDir_startErasing_touches e c s)

theorem deferredResume_touches (s : State) : SameBut [.eraseMarks, .dirOp] s (deferredResume s) := by
  unfold deferredResume
  split
  · exact sameBut_ite (.refl _ s) (withDir_startErasing_touches _ _ s)
  · exact .refl _ s

/-! ### An abandoned gather -/

/-- An abandoned gather answers its joined messages ERASE_ABANDONED with the erase set (R80). -/
theorem abandonGather_entered {s : State} {e : EraseJob} {window : Nat} (hop : s.dir.op = .gathering e window) :
    Entered (answersOf kindErase e.joined 13 (maskOf e.set)) s (abandonGather s) := by
  unfold abandonGather
  rw [hop]
  exact (entered_congr rfl rfl).1 (answerAll_entered kindErase e.joined 13 (maskOf e.set) (withOp .ready s))

/-! ### An erase that starts or resumes -/

/-- Entering ERASING at an event's end: the erase runs with its mark set, or a standing paint request suspends it (R81, R87). -/
theorem dirSettled_enterErasing {s u : State} {e : EraseJob} {c : Current} (hdir : u.dir = (enterErasing e c s).dir)
    (hset : u.settings = s.settings) :
    DirSettled (.erasing e { c with begun := true }) (setInsert c.sector s.dir.eraseMarks) (settle u) := by
  unfold enterErasing at hdir
  by_cases hq : (s.paint.suspendRequest && s.settings.autoSuspend) = true
  · rw [if_pos hq] at hdir
    have hend : (settle u).dir = u.dir := settle_dir_of_op (by rw [hdir]; simp [Unmoved])
    have hauto : s.settings.autoSuspend = true := (Bool.and_eq_true_iff.1 hq).2
    refine .inr (.inl ⟨e, { c with begun := true }, rfl, ?_, ?_, ?_⟩)
    · rw [settle_settings, hset, hauto]
    · rw [hend, hdir]; rfl
    · rw [hend, hdir]; rfl
  · rw [if_neg hq] at hdir
    exact dirSettled_of_eq (by rw [hdir]; rfl) (by rw [hdir]; rfl)

section
variable {u : State} {e : EraseJob} {c : Current}

theorem deferredResume_of_unmoved (h : Unmoved u.dir.op) : deferredResume u = u := by
  unfold deferredResume
  split
  · next e c hop => exact absurd hop (h.2 e c)
  · rfl

/-- While the paint request stands, with auto-suspend on, a suspension of cause PAINT goes on (R87). -/
theorem deferredResume_requested (hop : u.dir.op = .suspended e c .paint) (hq : u.paint.suspendRequest = true)
    (ha : u.settings.autoSuspend = true) : deferredResume u = u := by
  simp [deferredResume, hop, hq, ha]

/-- Without it the suspension ends at once (R87). -/
theorem deferredResume_withdrawn (hop : u.dir.op = .suspended e c .paint)
    (hq : ¬ (u.paint.suspendRequest = true ∧ u.settings.autoSuspend = true)) :
    deferredResume u = u.withDir (startErasing e c u.dir) := by
  unfold deferredResume
  simp only [hop]
  rw [if_neg (by simpa using hq)]

/-- A completion that leaves the erase SUSPENDED, by cause: a commanded suspension stands, and one of cause PAINT stands with its
request or is resumed (R84, R86, R87). -/
theorem dirSettled_deferredResume {cause : SuspendCause} (hop : u.dir.op = .suspended e c cause) :
    (cause = .commanded → DirSettled (.suspended e c .commanded) u.dir.eraseMarks (settle (deferredResume u))) ∧
    (cause = .paint → u.paint.suspendRequest = true → u.settings.autoSuspend = true →
      DirSettled (.suspended e c .paint) u.dir.eraseMarks (settle (deferredResume u))) ∧
    (cause = .paint → ¬ (u.paint.suspendRequest = true ∧ u.settings.autoSuspend = true) →
      DirSettled (.erasing e { c with begun := true }) (setInsert c.sector u.dir.eraseMarks) (settle (deferredResume u))) := by
  refine ⟨?_, ?_, ?_⟩
  · rintro rfl
    rw [deferredResume_of_unmoved (by simp [Unmoved, hop])]
    exact dirSettled_of_eq hop rfl
  · rintro rfl hq ha
    rw [deferredResume_requested hop hq ha]
    exact dirSettled_of_eq hop rfl
  · rintro rfl hq
    rw [deferredResume_withdrawn hop hq]
    exact dirSettled_of_eq rfl rfl

end

end Sys2Proof.Machine

/-! O37 to O39. WRITE PLACE: its refusals in order, its start on a blank slot, and its completion. -/

namespace Sys2Proof.Machine

/-! ### The message, by the state that takes it -/

/-- The lock or the slot refuses a write, with the outcome and detail it answers (R76 steps 2 and 3). -/
def WriteBlocked (d : Directory) (place outcome detail : Nat) : Prop :=
  (sectorOf place ∈ d.locks ∧ outcome = 10 ∧ detail = sectorOf place) ∨
    (sectorOf place ∉ d.locks ∧ slotState d place ≠ .blank ∧ outcome = 11 ∧ detail = slotStateCode (slotState d place))

section
variable {h : Header} {f : WriteFields} {s : State}

theorem tryWrite_blocked {outcome detail : Nat} (op : DirOp) (hb : WriteBlocked s.dir f.place outcome detail) :
    tryWrite h f op s = answer kindWrite h outcome detail s := by
  unfold tryWrite
  rcases hb with ⟨hlock, rfl, rfl⟩ | ⟨hlock, hslot, rfl, rfl⟩
  · rw [if_pos (by simpa using hlock)]
    rfl
  · rw [if_neg (by simpa using hlock), if_pos hslot]
    rfl

theorem tryWrite_blank (op : DirOp) (hlock : sectorOf f.place ∉ s.dir.locks) (hslot : slotState s.dir f.place = .blank) :
    tryWrite h f op s = startWrite f op s := by
  unfold tryWrite
  rw [if_neg (by simpa using hlock), if_neg (by simpa using hslot)]

theorem acceptWrite_outOfRange (hf : WriteOutOfRange f) : acceptWrite h f s = answer kindWrite h 6 0 s := by
  unfold acceptWrite
  rw [if_neg (fun hx => (writeFieldsOK_iff f).1 hx hf)]
  rfl

theorem acceptWrite_busy (hf : ¬ WriteOutOfRange f) (hop : OpBusy s.dir.op) :
    acceptWrite h f s = answer kindWrite h 9 0 s := by
  unfold acceptWrite
  rw [if_pos ((writeFieldsOK_iff f).2 hf)]
  rcases hop with hop | ⟨w, hop⟩ | ⟨l, hop⟩ | ⟨e, c, hop⟩ | ⟨e, c, k, m, hop⟩ | ⟨e, c, k, w, hop⟩ <;> rw [hop] <;> rfl

theorem acceptWrite_ready (hf : ¬ WriteOutOfRange f) (hop : s.dir.op = .ready) :
    acceptWrite h f s = tryWrite h f (.writing { place := f.place, header := h }) s := by
  unfold acceptWrite
  rw [if_pos ((writeFieldsOK_iff f).2 hf), hop]

theorem acceptWrite_gathering {e : EraseJob} {window : Nat} (hf : ¬ WriteOutOfRange f)
    (hop : s.dir.op = .gathering e window) :
    acceptWrite h f s = tryWrite h f (.writing { place := f.place, header := h }) (abandonGather s) := by
  unfold acceptWrite
  rw [if_pos ((writeFieldsOK_iff f).2 hf), hop]

/-- A suspended erase keeps its own sectors from being written (R86). -/
theorem acceptWrite_unavailable {e : EraseJob} {c : Current} {cause : SuspendCause} (hf : ¬ WriteOutOfRange f)
    (hop : s.dir.op = .suspended e c cause) (hset : sectorOf f.place ∈ e.set) :
    acceptWrite h f s = answer kindWrite h 8 (sectorOf f.place) s := by
  unfold acceptWrite
  rw [if_pos ((writeFieldsOK_iff f).2 hf), hop]
  exact if_pos (by simpa using hset)

theorem acceptWrite_suspended {e : EraseJob} {c : Current} {cause : SuspendCause} (hf : ¬ WriteOutOfRange f)
    (hop : s.dir.op = .suspended e c cause) (hset : sectorOf f.place ∉ e.set) :
    acceptWrite h f s = tryWrite h f (.suspendedWriting e c cause { place := f.place, header := h }) s := by
  unfold acceptWrite
  rw [if_pos ((writeFieldsOK_iff f).2 hf), hop]
  exact if_neg (by simpa using hset)

theorem exec_writePlace (hl : Listening s) : exec (.writePlace h f) s = .next (settle (acceptWrite h f s)) :=
  congrArg Host.Outcome.next (feedEvent_of_listening hl _)

end

/-- Settles O37: each refusal is one answer, after an abandoned gather's where one stood. -/
theorem writePlaceRefused : Obligations.WritePlaceRefused := by
  intro h f s hl
  refine ⟨_, exec_writePlace hl, fun hf => settle_answered (acceptWrite_outOfRange hf),
    fun hf hop => settle_answered (acceptWrite_busy hf hop),
    fun e c cause hf hop hset => settle_answered (acceptWrite_unavailable hf hop hset), fun outcome detail hf hb => ⟨?_, ?_⟩⟩
  · rintro (hop | ⟨e, c, cause, hop, hset⟩)
    · exact settle_answered ((acceptWrite_ready hf hop).trans (tryWrite_blocked _ hb))
    · exact settle_answered ((acceptWrite_suspended hf hop hset).trans (tryWrite_blocked _ hb))
  · intro e window hop
    have hdir := abandonGather_dir hop
    rw [acceptWrite_gathering hf hop, tryWrite_blocked (outcome := outcome) (detail := detail) _ (by rw [hdir]; exact hb)]
    have hto : (answer kindWrite h outcome detail (abandonGather s)).dir.op = .ready := by rw [answer_dir, hdir]
    have hstill : Unmoved (answer kindWrite h outcome detail (abandonGather s)).dir.op := by rw [hto]; simp [Unmoved]
    refine ⟨maskOf e.set, maskOf_is e.set, (entered_append (abandonGather_entered hop) (answer_entered _ _ _ _ _)).settle, ?_, ?_⟩
    · rw [settle_dir_of_op hstill, hto]
    · exact sameBut_settle_of_op (((abandonGather_touches s).mono (by decide)).answer (by decide) _ _ _ _) hstill

/-! ### A write starts -/

/-- One slot written in storage and in the slot-state table (R69, R70). -/
theorem slotBecomes_of_cellSet {s t : State} {place : Nat} {slot : StoredSlot} {state : SlotState} (hwf : s.dir.wf = true)
    (hstorage : t.dir.storage = cellSet StoredSlot.erased s.dir.storage place slot)
    (hstates : t.dir.slotStates = cellSet .blank s.dir.slotStates place state) : SlotBecomes place slot state s t := by
  obtain ⟨hst, hss, -⟩ := (wf_iff s.dir).1 hwf
  have hslot (p : Nat) : cellGet StoredSlot.erased t.dir.storage p =
      if p = place then slot else cellGet StoredSlot.erased s.dir.storage p := by rw [hstorage, cellGet_cellSet hst]
  have hstate (p : Nat) : slotState t.dir p = if p = place then state else slotState s.dir p := by
    unfold slotState
    rw [hstates, cellGet_cellSet hss]
  exact ⟨by rw [hslot, if_pos rfl], by rw [hstate, if_pos rfl], fun p hp => by rw [hslot, hstate, if_neg hp, if_neg hp]; simp⟩

theorem startWrite_touches (f : WriteFields) (op : DirOp) (s : State) :
    SameBut [.storage, .slotStates, .dirOp] s (startWrite f op s) := by
  intro p hp
  cases p with
  | storage | slotStates | dirOp => simp at hp
  | _ => simp [Part.same, startWrite]

/-- A write that starts on a state whose gather, if any, has been abandoned, taken whole (R76). -/
theorem startWrite_whole {f : WriteFields} {op : DirOp} {s u : State} (hwf : s.dir.wf = true)
    (hu : SameBut [.dirOp, .results] s u) (hop : Unmoved op) :
    SlotBecomes f.place { entry := some f.entry, begun := true, complete := false } .writing s (settle (startWrite f op u)) ∧
      (settle (startWrite f op u)).dir.op = op ∧
      SameBut (([.storage, .slotStates, .dirOp, .results] : List Part) ++ grantParts) s (settle (startWrite f op u)) := by
  have hstorage : u.dir.storage = s.dir.storage := hu .storage (by decide)
  have hstates : u.dir.slotStates = s.dir.slotStates := hu .slotStates (by decide)
  refine ⟨slotBecomes_of_cellSet hwf ?_ ?_, ?_, sameBut_settle_of_op ((hu.trans (startWrite_touches f op u)).mono (by decide)) hop⟩
  · rw [settle_dir_storage, ← hstorage]; rfl
  · rw [settle_dir_slotStates, ← hstates]; rfl
  · rw [settle_dir_of_op hop]; rfl

theorem startWrite_results (f : WriteFields) (op : DirOp) (s : State) : (settle (startWrite f op s)).results = s.results := by
  rw [settle_results]; rfl

/-- Settles O38: in each state that takes it the message comes to `startWrite`, in GATHERING on the abandoned gather. -/
theorem writePlaceStarts : Obligations.WritePlaceStarts := by
  intro h f s hl hwf hf hlock hblank hop
  refine ⟨_, exec_writePlace hl, ?_⟩
  rcases hop with hop | ⟨e, window, hop⟩ | ⟨e, c, cause, hop, hset⟩
  · rw [acceptWrite_ready hf hop, tryWrite_blank _ hlock hblank]
    obtain ⟨hslot, hto, hframe⟩ := startWrite_whole (f := f) (op := .writing { place := f.place, header := h }) hwf (.refl _ s)
      (by simp [Unmoved])
    exact ⟨hslot, fun _ => ⟨hto, startWrite_results _ _ s⟩, fun e w hx => by simp [hop] at hx,
      fun e c k hx => by simp [hop] at hx, hframe⟩
  · have hdir := abandonGather_dir hop
    rw [acceptWrite_gathering hf hop, tryWrite_blank _ (by rw [hdir]; exact hlock) (by rw [hdir]; exact hblank)]
    obtain ⟨hslot, hto, hframe⟩ := startWrite_whole (f := f) (op := .writing { place := f.place, header := h }) hwf
      (abandonGather_touches s) (by simp [Unmoved])
    refine ⟨hslot, fun hx => by simp [hop] at hx, fun e' w hx => ⟨hto, maskOf e'.set, maskOf_is _, ?_⟩,
      fun e c k hx => by simp [hop] at hx, hframe⟩
    exact (entered_congr rfl (startWrite_results _ _ _)).1 (abandonGather_entered hx)
  · rw [acceptWrite_suspended hf hop hset, tryWrite_blank _ hlock hblank]
    obtain ⟨hslot, hto, hframe⟩ := startWrite_whole (f := f)
      (op := .suspendedWriting e c cause { place := f.place, header := h }) hwf (.refl _ s) (by simp [Unmoved])
    refine ⟨hslot, fun hx => by simp [hop] at hx, fun e w hx => by simp [hop] at hx, fun e' c' k hx => ?_, hframe⟩
    rw [hop] at hx
    cases hx
    exact ⟨hto, startWrite_results _ _ s⟩

/-! ### A write ends -/

/-- The operation state a completed write returns to (R77, R86). -/
def afterWrite : DirOp → DirOp
  | .suspendedWriting e c cause _ => .suspended e c cause
  | _ => .ready

theorem completeWrite_eq {s : State} {w : WriteRun} (verified : Bool)
    (hop : s.dir.op = .writing w ∨ ∃ e c cause, s.dir.op = .suspendedWriting e c cause w) :
    completeWrite verified s = deferredResume (endWrite verified w (afterWrite s.dir.op) s) := by
  unfold completeWrite
  rcases hop with hop | ⟨e, c, cause, hop⟩
  · rw [hop, deferredResume_of_unmoved]
    · rfl
    · simp [Unmoved, endWrite, afterWrite]
  · rw [hop]
    rfl

theorem endWrite_touches (verified : Bool) (w : WriteRun) (op : DirOp) (s : State) :
    SameBut [.storage, .slotStates, .dirOp, .results] s (endWrite verified w op s) := by
  intro p hp
  cases p with
  | storage | slotStates | dirOp | results => simp at hp
  | _ => simp [Part.same, endWrite]

theorem endWrite_answered (verified : Bool) (w : WriteRun) (op : DirOp) (s : State) :
    Answered kindWrite w.header (if verified then 0 else 14) w.place s (endWrite verified w op s) :=
  (answered_congr rfl rfl).1 (answer_answered _ _ _ _ _)

theorem exec_writeComplete {s : State} (hrun : Running s) (verified : Bool) :
    exec (.writeComplete verified) s = .next (settle (completeWrite verified s)) :=
  congrArg Host.Outcome.next (event_of_running hrun _)

/-- Settles O39: the slot by `endWrite`, and the operation state by the deferred resumption that follows it. -/
theorem writeCompletes : Obligations.WriteCompletes := by
  intro verified s w hrun hwf hop
  refine ⟨_, exec_writeComplete hrun verified, ?_⟩
  rw [completeWrite_eq verified hop]
  generalize hu : endWrite verified w (afterWrite s.dir.op) s = u
  have hmarks : u.dir.eraseMarks = s.dir.eraseMarks := by subst hu; simp [endWrite]
  have hto : u.dir.op = afterWrite s.dir.op := by subst hu; simp [endWrite]
  have hend : SameBut [.storage, .slotStates, .dirOp, .results] s u := hu ▸ endWrite_touches _ _ _ s
  have hresume := deferredResume_touches u
  have hstorage : (deferredResume u).dir.storage = u.dir.storage := hresume .storage (by decide)
  have hstates : (deferredResume u).dir.slotStates = u.dir.slotStates := hresume .slotStates (by decide)
  have hresults : (deferredResume u).results = u.results := hresume .results (by decide)
  have hrequest : u.paint.suspendRequest = s.paint.suspendRequest := hend .suspendRequest (by decide)
  have hsettings : u.settings = s.settings := hend .settings (by decide)
  refine ⟨slotBecomes_of_cellSet hwf ?_ ?_, ?_, fun hw => ?_, fun e c hw => ?_, fun e c hw => ?_, ?_⟩
  · rw [settle_dir_storage, hstorage, ← hu]; simp [endWrite]
  · rw [settle_dir_slotStates, hstates, ← hu]; simp [endWrite]
  · refine (answered_congr rfl ?_).1 (endWrite_answered verified w (afterWrite s.dir.op) s)
    rw [settle_results, hresults, hu]
  · rw [hw] at hto
    rw [deferredResume_of_unmoved (by rw [hto]; simp [Unmoved, afterWrite])]
    exact dirSettled_of_eq hto hmarks
  · rw [hw] at hto
    exact hmarks ▸ (dirSettled_deferredResume hto).1 rfl
  · rw [hw] at hto
    obtain ⟨-, hstands, hends⟩ := dirSettled_deferredResume hto
    rw [hmarks, hrequest, hsettings] at hstands hends
    exact ⟨hstands rfl, hends rfl⟩
  · exact (sameBut_settle (hend.trans hresume)).mono (by decide)

end Sys2Proof.Machine

/-! O40, O41. ERASE SECTOR: its refusals in order and the gather it joins; and the erase that runs sector by sector. -/

namespace Sys2Proof.Machine

/-! ### The lowest place in use -/

/-- The check of references finds the lowest place of the sector that a record refers to (R78). -/
theorem lowestReferenced_is {d : Directory} {sector p : Nat} (hwf : d.wf = true) (hsector : sectorOf p = sector)
    (hp : 0 < cellGet 0 d.counts p) (hlow : ∀ q < p, sectorOf q = sector → cellGet 0 d.counts q = 0) :
    lowestReferenced d sector = some p := by
  obtain ⟨-, -, hcounts⟩ := (wf_iff d).1 hwf
  have hmem : (p, cellGet 0 d.counts p) ∈ d.counts := (mem_cells hcounts (Nat.ne_of_gt hp)).2 rfl
  obtain ⟨before, after, hsplit⟩ := List.append_of_mem hmem
  have hearlier : before.find? (fun c => decide (sectorOf c.1 = sector) && decide (0 < c.2)) = none := by
    rw [List.find?_eq_none]
    rintro ⟨q, n⟩ hq
    simp only [Bool.and_eq_true, decide_eq_true_eq, not_and]
    intro hqs hn
    have hqp : q < p := by
      obtain ⟨hsorted, -⟩ := cells_sorted hcounts
      rw [hsplit, List.map_append, List.pairwise_append] at hsorted
      obtain ⟨-, -, hcross⟩ := hsorted
      exact hcross q (List.mem_map.2 ⟨_, hq, rfl⟩) p (by simp)
    have hread : cellGet 0 d.counts q = n :=
      (mem_cells hcounts (Nat.ne_of_gt hn)).1 (hsplit ▸ List.mem_append_left _ hq)
    have := hlow q hqp hqs
    omega
  unfold lowestReferenced
  rw [hsplit, List.find?_append, hearlier, List.find?_cons_of_pos (by simp [hsector, hp])]
  rfl

theorem lowestReferenced_none {d : Directory} {sector : Nat} (hwf : d.wf = true)
    (hfree : ∀ p, sectorOf p = sector → cellGet 0 d.counts p = 0) : lowestReferenced d sector = none := by
  obtain ⟨-, -, hcounts⟩ := (wf_iff d).1 hwf
  unfold lowestReferenced
  rw [Option.map_eq_none_iff, List.find?_eq_none]
  rintro ⟨q, n⟩ hm
  simp only [Bool.and_eq_true, decide_eq_true_eq, not_and]
  intro hq hn
  have := (mem_cells hcounts (Nat.ne_of_gt hn)).1 hm
  have := hfree q hq
  omega

/-! ### The message, by the state that takes it -/

section
variable {h : Header} {sector : Nat} {s : State}

theorem acceptErase_outOfRange (hs : 7 < sector) : acceptErase h sector s = answer kindErase h 6 0 s := by
  unfold acceptErase
  rw [if_neg (by omega)]
  rfl

theorem acceptErase_busy (hs : sector ≤ 7) (hop : OpBusy s.dir.op ∨ ∃ e c cause, s.dir.op = .suspended e c cause) :
    acceptErase h sector s = answer kindErase h 9 0 s := by
  unfold acceptErase
  rw [if_pos (by omega)]
  rcases hop with (hop | ⟨w, hop⟩ | ⟨l, hop⟩ | ⟨e, c, hop⟩ | ⟨e, c, k, m, hop⟩ | ⟨e, c, k, w, hop⟩) | ⟨e, c, k, hop⟩ <;>
    rw [hop] <;> rfl

/-- In READY a message begins a gather of its own; in GATHERING it joins the one that stands (R78). -/
theorem acceptErase_tries {e : EraseJob} {window : Nat} (hs : sector ≤ 7) (hop : s.dir.op = .gathering e window ∨
    (s.dir.op = .ready ∧ e = { set := [], joined := [], erased := [] })) :
    ∃ w, acceptErase h sector s = tryErase h sector e w s ∧ (sector ∈ e.set → w = window) := by
  unfold acceptErase
  rw [if_pos (by omega)]
  rcases hop with hop | ⟨hop, rfl⟩
  · exact ⟨window, by rw [hop], fun _ => rfl⟩
  · exact ⟨gatherMs, by rw [hop], fun hm => nomatch hm⟩

variable {e : EraseJob} {window : Nat}

theorem tryErase_locked (hlock : sector ∈ s.dir.locks) :
    tryErase h sector e window s = answer kindErase h 10 sector s := by
  unfold tryErase
  rw [if_pos (by simpa using hlock)]
  rfl

theorem tryErase_inUse {p : Nat} (hlock : sector ∉ s.dir.locks) (hp : lowestReferenced s.dir sector = some p) :
    tryErase h sector e window s = answer kindErase h 12 p s := by
  unfold tryErase
  rw [if_neg (by simpa using hlock), hp]
  rfl

theorem tryErase_free (hlock : sector ∉ s.dir.locks) (hp : lowestReferenced s.dir sector = none) :
    tryErase h sector e window s = joinErase h sector e window s := by
  unfold tryErase
  rw [if_neg (by simpa using hlock), hp]

theorem joinErase_full (hfull : 16 ≤ e.joined.length) :
    joinErase h sector e window s = answer kindErase h 9 0 s := by
  unfold joinErase
  rw [if_pos (show joinLimit ≤ e.joined.length from hfull)]
  rfl

theorem joinErase_joins (hroom : e.joined.length < 16) :
    ∃ e' window', joinErase h sector e window s = withOp (.gathering e' window') s ∧ e'.joined = e.joined ++ [h] ∧
      e'.erased = e.erased ∧ (sector ∈ e.set → e'.set = e.set ∧ window' = window) ∧
      (sector ∉ e.set → window' = 40 ∧ e'.set = setInsert sector e.set) := by
  unfold joinErase
  rw [if_neg (show ¬ joinLimit ≤ e.joined.length from Nat.not_le.2 hroom)]
  by_cases hm : sector ∈ e.set
  · rw [if_pos (by simpa using hm)]
    exact ⟨_, _, rfl, rfl, rfl, fun _ => ⟨rfl, rfl⟩, fun hn => absurd hm hn⟩
  · rw [if_neg (by simpa using hm)]
    exact ⟨_, _, rfl, rfl, rfl, fun hn => absurd hn hm, fun _ => ⟨rfl, rfl⟩⟩

theorem exec_eraseSector (hl : Listening s) : exec (.eraseSector h sector) s = .next (settle (acceptErase h sector s)) :=
  congrArg Host.Outcome.next (feedEvent_of_listening hl _)

end

/-- Settles O40: the checks in their order, with the lowest place in use found in the counts' canonical form. -/
theorem eraseSectorJoins : Obligations.EraseSectorJoins := by
  intro h sector s hl hwf _
  refine ⟨_, exec_eraseSector hl, fun hs => settle_answered (acceptErase_outOfRange hs),
    fun hs hop => settle_answered (acceptErase_busy hs hop), fun e window hs hop => ?_⟩
  obtain ⟨w, haccept, hw⟩ := acceptErase_tries (h := h) hs hop
  rw [haccept]
  refine ⟨fun hlock => settle_answered (tryErase_locked hlock), fun p hlock hp hpos hlow =>
    settle_answered (tryErase_inUse hlock (lowestReferenced_is hwf hp hpos hlow)), fun hlock hfree => ?_⟩
  rw [tryErase_free hlock (lowestReferenced_none hwf hfree)]
  refine ⟨fun hfull => settle_answered (joinErase_full hfull), fun hroom => ?_⟩
  obtain ⟨e', window', hjoin, hjoined, herased, hin, hnew⟩ := joinErase_joins (h := h) (sector := sector) (s := s) (window := w) hroom
  have hstill : Unmoved (withOp (.gathering e' window') s).dir.op := by simp [Unmoved, withOp]
  rw [hjoin]
  refine ⟨e', window', by rw [settle_dir_of_op hstill]; rfl, hjoined, herased, fun hm => ?_, fun hm => ?_,
    sameBut_settle_of_op (withOp_touches _ s) hstill⟩
  · obtain ⟨hset, hwindow⟩ := hin hm
    exact ⟨hset, hwindow.trans (hw hm)⟩
  · obtain ⟨hwindow, hset⟩ := hnew hm
    exact ⟨hwindow, fun a => by rw [hset, mem_setInsert], fun hsorted => hset ▸ setInsert_sorted hsorted⟩

/-! ### The lowest sector begins -/

theorem firstCurrent_eq {set rest : List Nat} {a : Nat} (h : set = a :: rest) : firstCurrent set = firstOf a false := by
  subst h
  rfl

theorem gatherExpiry_eq {s : State} {e : EraseJob} {window a : Nat} {rest : List Nat} (hop : s.dir.op = .gathering e window)
    (hset : e.set = a :: rest) : gatherExpiry s = enterErasing e (firstOf a false) s := by
  unfold gatherExpiry
  rw [hop, ← firstCurrent_eq hset]

theorem exec_gatherWindowExpiry {s : State} (hrun : Running s) :
    exec .gatherWindowExpiry s = .next (settle (gatherExpiry s)) :=
  congrArg Host.Outcome.next (event_of_running hrun _)

/-! ### A sector is done -/

theorem setRemoveAll_singleton (a : Nat) (l : List Nat) : setRemoveAll [a] l = l.filter (fun b => b ≠ a) :=
  List.filter_congr fun b _ => by simp

theorem EraseJob.done_erasedOne (e : EraseJob) (sector : Nat) : ErasedOne e (e.done sector) sector :=
  ⟨setRemoveAll_singleton sector e.set, rfl, fun _ => mem_setInsert⟩

/-- A sector cleared in storage and in the slot-state table (R81). -/
theorem sectorErased_of_clear {s t : State} {sector : Nat} (hwf : s.dir.wf = true)
    (hstorage : t.dir.storage = cellClear (128 * sector) (128 * sector + 128) s.dir.storage)
    (hstates : t.dir.slotStates = cellClear (128 * sector) (128 * sector + 128) s.dir.slotStates) :
    SectorErased sector s t := by
  obtain ⟨hst, hss, -⟩ := (wf_iff s.dir).1 hwf
  intro p
  unfold slotState
  rw [hstorage, hstates, cellGet_cellClear hst, cellGet_cellClear hss]
  refine ⟨fun hp => ?_, fun hp => ?_⟩
  · rw [if_pos (sectorOf_eq_iff.1 hp), if_pos (sectorOf_eq_iff.1 hp)]
    exact ⟨rfl, rfl⟩
  · rw [if_neg (fun hx => hp (sectorOf_eq_iff.2 hx)), if_neg (fun hx => hp (sectorOf_eq_iff.2 hx))]
    exact ⟨rfl, rfl⟩

section
variable {s : State} {e : EraseJob} {c : Current} {cause : SuspendCause} {merged : List Header}

theorem sectorDone_erasing_last (hop : s.dir.op = .erasing e c) (hend : (e.done c.sector).set = []) :
    sectorDone s = answerAll kindErase e.joined 0 (maskOf (e.done c.sector).erased)
      (s.withDir { eraseSlots c.sector s.dir with op := .ready }) := by
  unfold sectorDone
  rw [hop]
  exact if_pos (by simp [hend])

theorem sectorDone_erasing_next {a : Nat} {rest : List Nat} (hop : s.dir.op = .erasing e c)
    (hnext : (e.done c.sector).set = a :: rest) : sectorDone s =
      s.withDir (startErasing (e.done c.sector) (firstOf a false) (eraseSlots c.sector s.dir)) := by
  unfold sectorDone
  rw [hop, ← firstCurrent_eq hnext]
  exact if_neg (by simp [hnext])

theorem sectorDone_suspending_last (hop : s.dir.op = .suspending e c cause merged) (hbegun : c.begun = true)
    (hend : (e.done c.sector).set = []) : sectorDone s = answerAll kindSuspend merged 15 0
      (answerAll kindErase e.joined 0 (maskOf (e.done c.sector).erased)
        (s.withDir { eraseSlots c.sector s.dir with op := .ready })) := by
  unfold sectorDone
  rw [hop]
  exact (if_pos hbegun).trans (if_pos (by simp [hend]))

theorem sectorDone_suspending_next {a : Nat} {rest : List Nat} (hop : s.dir.op = .suspending e c cause merged)
    (hbegun : c.begun = true) (hnext : (e.done c.sector).set = a :: rest) : sectorDone s =
      s.withDir { eraseSlots c.sector s.dir with op := .suspending (e.done c.sector) (firstOf a false) cause merged } := by
  unfold sectorDone
  rw [hop, ← firstCurrent_eq hnext]
  exact (if_pos hbegun).trans (if_neg (by simp [hnext]))

/-- However the erase goes on, a sector done is cleared (R81). -/
theorem sectorDone_tables
    (hop : s.dir.op = .erasing e c ∨ (c.begun = true ∧ ∃ cause merged, s.dir.op = .suspending e c cause merged)) :
    (sectorDone s).dir.storage = cellClear (128 * c.sector) (128 * c.sector + 128) s.dir.storage ∧
      (sectorDone s).dir.slotStates = cellClear (128 * c.sector) (128 * c.sector + 128) s.dir.slotStates := by
  rcases hop with hop | ⟨hbegun, cause, merged, hop⟩
  · cases hset : (e.done c.sector).set with
    | nil => rw [sectorDone_erasing_last hop hset, answerAll_dir]; exact ⟨rfl, rfl⟩
    | cons a rest => rw [sectorDone_erasing_next hop hset]; exact ⟨rfl, rfl⟩
  · cases hset : (e.done c.sector).set with
    | nil => rw [sectorDone_suspending_last hop hbegun hset, answerAll_dir, answerAll_dir]; exact ⟨rfl, rfl⟩
    | cons a rest => rw [sectorDone_suspending_next hop hbegun hset]; exact ⟨rfl, rfl⟩

end

/-- What the end of a sector touches. -/
def sectorParts : List Part := [.storage, .slotStates, .results, .eraseMarks, .dirOp]

theorem withDir_eraseSlots_touches (sector : Nat) (s : State) : SameBut sectorParts s (s.withDir (eraseSlots sector s.dir)) := by
  intro p hp
  cases p with
  | storage | slotStates | results | eraseMarks | dirOp => simp [sectorParts] at hp
  | _ => simp [Part.same, eraseSlots]

theorem sectorDone_touches (s : State) : SameBut sectorParts s (sectorDone s) := by
  have hop (sector : Nat) (op : DirOp) : SameBut sectorParts s (s.withDir { eraseSlots sector s.dir with op := op }) :=
    (withDir_eraseSlots_touches sector s).within ((withOp_touches op (s.withDir (eraseSlots sector s.dir))).mono (by decide))
  have hnext (sector : Nat) (e : EraseJob) (c : Current) :
      SameBut sectorParts s (s.withDir (startErasing e c (eraseSlots sector s.dir))) :=
    (withDir_eraseSlots_touches sector s).within
      ((withDir_startErasing_touches e c (s.withDir (eraseSlots sector s.dir))).mono (by decide))
  unfold sectorDone
  split
  · exact sameBut_ite ((hop _ _).answerAll (by decide) _ _ _ _) (hnext _ _ _)
  · exact sameBut_ite (sameBut_ite (((hop _ _).answerAll (by decide) _ _ _ _).answerAll (by decide) _ _ _ _) (hop _ _))
      (.refl _ s)
  · exact .refl _ s

theorem exec_sectorEraseComplete {s : State} (hrun : Running s) :
    exec .sectorEraseComplete s = .next (settle (sectorDone s)) :=
  congrArg Host.Outcome.next (event_of_running hrun _)

/-- Settles O41: the gather's expiry enters ERASING; a sector's end is cleared storage with the erase gone on or over. -/
theorem eraseRunsSectorBySector : Obligations.EraseRunsSectorBySector := by
  refine ⟨fun s e window a rest hrun hop hset => ⟨_, exec_gatherWindowExpiry hrun, ?_, ?_⟩, fun s e c hrun hwf hop => ?_⟩
  · rw [gatherExpiry_eq hop hset]
    exact dirSettled_enterErasing (c := firstOf a false) rfl ((enterErasing_touches _ _ s) .settings (by decide))
  · rw [gatherExpiry_eq hop hset]
    exact (sameBut_settle (enterErasing_touches _ _ s)).mono (by decide)
  have hmarks : setRemoveAll [c.sector] s.dir.eraseMarks = s.dir.eraseMarks.filter (fun a => a ≠ c.sector) :=
    setRemoveAll_singleton _ _
  obtain ⟨hstorage, hstates⟩ := sectorDone_tables hop
  refine ⟨_, e.done c.sector, exec_sectorEraseComplete hrun,
    sectorErased_of_clear hwf (by rw [settle_dir_storage, hstorage]) (by rw [settle_dir_slotStates, hstates]),
    e.done_erasedOne c.sector, fun hop => ⟨fun hend => ?_, fun a rest hnext => ?_⟩,
    fun cause merged hsus => ?_, (sameBut_settle (sectorDone_touches s)).mono (by decide)⟩
  · rw [sectorDone_erasing_last hop hend, ← hmarks]
    refine ⟨_, maskOf_is _, ((entered_congr rfl rfl).1 (answerAll_entered kindErase e.joined 0 _ _)).settle, ?_⟩
    exact dirSettled_of_eq (by rw [answerAll_dir]; rfl) (by rw [answerAll_dir]; rfl)
  · rw [sectorDone_erasing_next hop hnext, ← hmarks]
    exact ⟨by rw [settle_results]; rfl, dirSettled_of_eq rfl rfl⟩
  · have hbegun : c.begun = true := by
      rcases hop with hop | ⟨hbegun, -⟩
      · rw [hsus] at hop; cases hop
      · exact hbegun
    refine ⟨fun hend => ?_, fun a rest hnext => ?_⟩
    · rw [sectorDone_suspending_last hsus hbegun hend, ← hmarks]
      refine ⟨_, maskOf_is _, (entered_append ((entered_congr rfl rfl).1 (answerAll_entered kindErase e.joined 0 _ _))
        (answerAll_entered kindSuspend merged 15 0 _)).settle, ?_⟩
      exact dirSettled_of_eq (by rw [answerAll_dir, answerAll_dir]; rfl) (by rw [answerAll_dir, answerAll_dir]; rfl)
    · rw [sectorDone_suspending_next hsus hbegun hnext, ← hmarks]
      exact ⟨by rw [settle_results]; rfl, dirSettled_of_eq rfl rfl⟩

end Sys2Proof.Machine

/-! O42, O43. SUSPEND ERASE and RESUME ERASE by the operation state, and the end of a suspension. -/

namespace Sys2Proof.Machine

/-! ### SUSPEND ERASE -/

theorem acceptSuspend_touches (h : Header) (s : State) : SameBut [.dirOp, .results] s (acceptSuspend h s) := by
  have moved (op : DirOp) : SameBut [.dirOp, .results] s (withOp op s) := (withOp_touches op s).mono (by decide)
  have told (op : DirOp) (o d : Nat) : SameBut [.dirOp, .results] s (answer kindSuspend h o d (withOp op s)) :=
    (moved op).answer (by decide) _ _ _ _
  have refused (o d : Nat) : SameBut [.dirOp, .results] s (answer kindSuspend h o d s) :=
    (SameBut.refl _ s).answer (by decide) _ _ _ _
  unfold acceptSuspend
  split
  · exact moved _
  · exact moved _
  · exact told _ _ _
  · exact told _ _ _
  · exact told _ _ _
  all_goals exact refused _ _

/-- SUSPEND ERASE leaves no state the paint request acts on: it stops what erases and takes over what paint suspended (R83). -/
theorem acceptSuspend_unmoved (h : Header) (s : State) : Unmoved (acceptSuspend h s).dir.op := by
  unfold acceptSuspend
  split
  case h_6 | h_7 | h_8 | h_9 => rw [answer_dir]; simp [Unmoved, *]
  all_goals simp [Unmoved, withOp]

/-- A row of R83's table that changes the state and answers. -/
theorem suspend_told {h : Header} {s : State} {op : DirOp} {outcome detail : Nat}
    (he : acceptSuspend h s = answer kindSuspend h outcome detail (withOp op s)) :
    (settle (acceptSuspend h s)).dir.op = op ∧ Answered kindSuspend h outcome detail s (settle (acceptSuspend h s)) := by
  refine ⟨?_, ?_⟩
  · rw [settle_dir_of_op (acceptSuspend_unmoved h s), he, answer_dir]
    rfl
  · rw [he]
    exact ((answered_congr rfl rfl).1 (answer_answered _ _ _ _ (withOp op s))).settle

/-- A row of R83's table that leaves the answer to the suspension's end. -/
theorem suspend_merged {h : Header} {s : State} {op : DirOp} (he : acceptSuspend h s = withOp op s) :
    (settle (acceptSuspend h s)).dir.op = op ∧ (settle (acceptSuspend h s)).results = s.results := by
  rw [settle_dir_of_op (acceptSuspend_unmoved h s), settle_results, he]
  exact ⟨rfl, rfl⟩

theorem exec_suspendErase {s : State} (hl : Listening s) (h : Header) :
    exec (.suspendErase h) s = .next (settle (acceptSuspend h s)) :=
  congrArg Host.Outcome.next (feedEvent_of_listening hl _)

/-- Settles O42, row by row: no row leaves a state that the event's end could move. -/
theorem suspendEraseByState : Obligations.SuspendEraseByState := by
  intro h s hl
  refine ⟨_, exec_suspendErase hl h, sameBut_settle_of_op (acceptSuspend_touches h s) (acceptSuspend_unmoved h s),
    fun e c hop => suspend_merged ?_, fun e c cause merged hop => suspend_merged ?_, fun e c cause hop => suspend_told ?_,
    fun e c cause w hop => suspend_told ?_, fun e window a rest hop hset => suspend_told ?_, fun hop => suspend_told ?_,
    fun hop => ?_⟩
  · rw [acceptSuspend, hop]
  · rw [acceptSuspend, hop]
  · rw [acceptSuspend, hop]; rfl
  · rw [acceptSuspend, hop]; rfl
  · rw [acceptSuspend, hop, ← firstCurrent_eq hset]; rfl
  · rcases hop with hop | ⟨w, hop⟩ | ⟨l, hop⟩ <;> simp only [acceptSuspend, hop] <;> rw [← hop] <;> rfl
  · rw [← hop]
    exact suspend_told (by simp only [acceptSuspend, hop]; rw [← hop]; rfl)

/-! ### The end of a suspension -/

/-- A suspension completes SUSPENDED with its merged messages answered the time remaining, before any deferred resumption
(R84). -/
theorem suspensionDone_eq {s : State} {e : EraseJob} {c : Current} {cause : SuspendCause} {merged : List Header}
    (hop : s.dir.op = .suspending e c cause merged) : suspensionDone s =
      deferredResume (answerAll kindSuspend merged 0 c.remaining (withOp (.suspended e c cause) s)) := by
  unfold suspensionDone
  rw [hop]
  rfl

theorem exec_suspensionComplete {s : State} (hrun : Running s) :
    exec .suspensionComplete s = .next (settle (suspensionDone s)) :=
  congrArg Host.Outcome.next (event_of_running hrun _)

theorem suspensionEnds {s : State} {e : EraseJob} {c : Current} {cause : SuspendCause} {merged : List Header}
    (hrun : Running s) (hop : s.dir.op = .suspending e c cause merged) :
    ∃ t, exec .suspensionComplete s = .next t ∧ Entered (answersOf kindSuspend merged 0 c.remaining) s t ∧
      (cause = .commanded → DirSettled (.suspended e c .commanded) s.dir.eraseMarks t) ∧
      (cause = .paint → s.paint.suspendRequest = true → s.settings.autoSuspend = true →
        DirSettled (.suspended e c .paint) s.dir.eraseMarks t) ∧
      (cause = .paint → ¬ (s.paint.suspendRequest = true ∧ s.settings.autoSuspend = true) →
        DirSettled (.erasing e { c with begun := true }) (setInsert c.sector s.dir.eraseMarks) t) ∧
      SameBut (.results :: arbiterParts) s t := by
  refine ⟨_, exec_suspensionComplete hrun, ?_⟩
  rw [suspensionDone_eq hop]
  generalize hu : answerAll kindSuspend merged 0 c.remaining (withOp (.suspended e c cause) s) = u
  have hentered : Entered (answersOf kindSuspend merged 0 c.remaining) s u := by
    subst hu
    exact (entered_congr rfl rfl).1 (answerAll_entered kindSuspend merged 0 c.remaining (withOp (.suspended e c cause) s))
  have htouch : SameBut [.dirOp, .results] s u := by
    subst hu
    exact ((withOp_touches _ s).mono (by decide)).answerAll (by decide) _ _ _ _
  have hto : u.dir.op = .suspended e c cause := by subst hu; rw [answerAll_dir]; rfl
  have hmarks : u.dir.eraseMarks = s.dir.eraseMarks := htouch .eraseMarks (by decide)
  have hrequest : u.paint.suspendRequest = s.paint.suspendRequest := htouch .suspendRequest (by decide)
  have hsettings : u.settings = s.settings := htouch .settings (by decide)
  have hresults : (deferredResume u).results = u.results := (deferredResume_touches u) .results (by decide)
  obtain ⟨hcommanded, hstands, hends⟩ := dirSettled_deferredResume hto
  rw [hmarks] at hcommanded
  rw [hmarks, hrequest, hsettings] at hstands hends
  exact ⟨((entered_congr rfl hresults).1 hentered).settle, hcommanded, hstands, hends,
    (sameBut_settle (htouch.trans (deferredResume_touches u))).mono (by decide)⟩

/-! ### RESUME ERASE -/

theorem acceptResume_touches (h : Header) (s : State) : SameBut [.eraseMarks, .dirOp, .results] s (acceptResume h s) := by
  have refused (o d : Nat) : SameBut [.eraseMarks, .dirOp, .results] s (answer kindResume h o d s) :=
    (SameBut.refl _ s).answer (by decide) _ _ _ _
  unfold acceptResume
  split
  · exact ((enterErasing_touches _ _ s).mono (by decide)).answer (by decide) _ _ _ _
  all_goals exact refused _ _

theorem acceptResume_commanded {h : Header} {s : State} {e : EraseJob} {c : Current}
    (hop : s.dir.op = .suspended e c .commanded) : acceptResume h s = answer kindResume h 0 0 (enterErasing e c s) := by
  unfold acceptResume
  rw [hop]
  rfl

/-- RESUME ERASE with no commanded suspension to resume (R85). -/
theorem acceptResume_notSuspended {h : Header} {s : State} (hop : s.dir.op = .ready ∨ (∃ w, s.dir.op = .writing w) ∨
    (∃ l, s.dir.op = .locking l) ∨ (∃ e window, s.dir.op = .gathering e window) ∨ (∃ e c, s.dir.op = .erasing e c) ∨
    (∃ e c, s.dir.op = .suspended e c .paint) ∨ ∃ e c w, s.dir.op = .suspendedWriting e c .paint w) :
    acceptResume h s = answer kindResume h 15 0 s := by
  unfold acceptResume
  rcases hop with hop | ⟨w, hop⟩ | ⟨l, hop⟩ | ⟨e, window, hop⟩ | ⟨e, c, hop⟩ | ⟨e, c, hop⟩ | ⟨e, c, w, hop⟩ <;>
    rw [hop] <;> rfl

theorem acceptResume_busy {h : Header} {s : State} (hop : s.dir.op = .scanning ∨
    (∃ e c cause merged, s.dir.op = .suspending e c cause merged) ∨ ∃ e c w, s.dir.op = .suspendedWriting e c .commanded w) :
    acceptResume h s = answer kindResume h 9 0 s := by
  unfold acceptResume
  rcases hop with hop | ⟨e, c, k, m, hop⟩ | ⟨e, c, w, hop⟩ <;> rw [hop] <;> rfl

/-- A message that is only answered leaves the operation state to the arbiter's decision alone. -/
theorem settle_refused {kind : Byte} {h : Header} {outcome detail : Nat} {s u : State}
    (hu : u = answer kind h outcome detail s) :
    Answered kind h outcome detail s (settle u) ∧ DirSettled s.dir.op s.dir.eraseMarks (settle u) := by
  obtain ⟨hanswer, ⟨⟨-, hdir⟩, -⟩, -⟩ := settle_answered hu
  exact ⟨hanswer, hdir⟩

theorem exec_resumeErase {s : State} (hl : Listening s) (h : Header) :
    exec (.resumeErase h) s = .next (settle (acceptResume h s)) :=
  congrArg Host.Outcome.next (feedEvent_of_listening hl _)

/-- Settles O43: the suspension's end by its deferred resumption, and RESUME ERASE row by row. -/
theorem suspensionEndsAndResumes : Obligations.SuspensionEndsAndResumes := by
  refine ⟨fun s e c cause merged hrun hop => suspensionEnds hrun hop, fun h s hl => ?_⟩
  refine ⟨_, exec_resumeErase hl h, (sameBut_settle (acceptResume_touches h s)).mono (by decide), fun e c hop => ?_,
    fun hop => settle_refused (acceptResume_notSuspended hop), fun hop => settle_refused (acceptResume_busy hop)⟩
  have henter := enterErasing_touches e c s
  rw [acceptResume_commanded hop]
  refine ⟨((answered_congr (henter .results (by decide)).symm rfl).1 (answer_answered _ _ _ _ _)).settle, ?_⟩
  exact dirSettled_enterErasing (by rw [answer_dir]) (by rw [answer_settings]; exact henter .settings (by decide))

end Sys2Proof.Machine

/-! O44, O45. LOCK SECTORS and FREE SECTORS with the change they start, and the start-up scan's end. -/

namespace Sys2Proof.Machine

/-! ### The change of locks -/

/-- The set of locked sectors a message asks for (R73). -/
def lockTarget (free : Bool) (sectors : Byte) (locks : List Nat) : List Nat :=
  if free then setRemoveAll (setOfMask sectors) locks else setInsertAll (setOfMask sectors) locks

theorem mem_lockTarget {free : Bool} {sectors : Byte} {locks : List Nat} {a : Nat} (ha : a < 8) :
    a ∈ lockTarget free sectors locks ↔ if sectors.getLsbD a then free = false else a ∈ locks := by
  unfold lockTarget
  cases free with
  | false =>
    rw [if_neg (by simp), mem_setInsertAll, mem_setOfMask]
    split <;> simp_all
  | true =>
    rw [if_pos rfl, mem_setRemoveAll, mem_setOfMask]
    split <;> simp_all

section
variable {kind : Byte} {h : Header} {target : List Nat} {s : State}

theorem tryLock_busy (hop : OpBusy s.dir.op ∨ ∃ e c cause, s.dir.op = .suspended e c cause) :
    tryLock kind h target s = answer kind h 9 0 s := by
  unfold tryLock
  rcases hop with (hop | ⟨w, hop⟩ | ⟨l, hop⟩ | ⟨e, c, hop⟩ | ⟨e, c, k, m, hop⟩ | ⟨e, c, k, w, hop⟩) | ⟨e, c, k, hop⟩ <;>
    rw [hop] <;> rfl

/-- In READY, and in GATHERING once the gather is abandoned, the change starts (R73, R80). -/
theorem tryLock_starts (hop : s.dir.op = .ready ∨ ∃ e window, s.dir.op = .gathering e window) :
    tryLock kind h target s = startLock kind h target (abandonGather s) := by
  unfold tryLock
  rcases hop with hop | ⟨e, window, hop⟩
  · simp [abandonGather, hop]
  · rw [hop]

end

theorem abandonGather_of_ready {s : State} (hop : s.dir.op = .ready) : abandonGather s = s := by
  unfold abandonGather
  rw [hop]

theorem startLock_touches (kind : Byte) (h : Header) (target : List Nat) (s : State) :
    SameBut [.dirOp, .results] s (startLock kind h target (abandonGather s)) :=
  (abandonGather_touches s).within ((withOp_touches _ (abandonGather s)).mono (by decide))

/-- What a lock message comes to, in the order of its checks: its sectors, the staff key for FREE, and the operation state
(R73). -/
theorem exec_lockMessage {c : Instr} {kind : Byte} {h : Header} {sectors : Byte} {s : State} {free : Bool} (hl : Listening s)
    (hc : (c = .lockSectors h sectors ∧ kind = kindLock ∧ free = false) ∨
      (c = .freeSectors h sectors ∧ kind = kindFree ∧ free = true)) :
    ∃ u, exec c s = .next (settle u) ∧ (sectors = 0 → u = answer kind h 6 0 s) ∧
      (sectors ≠ 0 → free = true → s.key.asserted = false → u = answer kind h 16 0 s) ∧
      (sectors ≠ 0 → (free = true → s.key.asserted = true) → u = tryLock kind h (lockTarget free sectors s.dir.locks) s) := by
  rcases hc with ⟨rfl, rfl, rfl⟩ | ⟨rfl, rfl, rfl⟩
  · refine ⟨acceptLock h sectors s, congrArg Host.Outcome.next (feedEvent_of_listening hl _), fun hz => ?_,
      (fun _ hf => nomatch hf), fun hz _ => ?_⟩
    · exact if_pos hz
    · exact if_neg hz
  · refine ⟨acceptFree h sectors s, congrArg Host.Outcome.next (feedEvent_of_listening hl _), fun hz => ?_,
      fun hz _ hk => ?_, fun hz hk => ?_⟩
    · exact if_pos hz
    · exact (if_neg hz).trans (if_neg (by simp [hk]))
    · exact (if_neg hz).trans (if_pos (hk rfl))

theorem lockDone_touches (s : State) : SameBut [.locks, .lockFlags, .dirOp, .results] s (lockDone s) := by
  unfold lockDone
  split
  · refine SameBut.answer (fun p hp => ?_) (by decide) _ _ _ _
    cases p with
    | locks | lockFlags | dirOp | results => simp at hp
    | _ => simp [Part.same]
  · exact .refl _ s

theorem exec_lockChangeComplete {s : State} (hrun : Running s) :
    exec .lockChangeComplete s = .next (settle (lockDone s)) :=
  congrArg Host.Outcome.next (event_of_running hrun _)

/-- The lock change completes (R74). -/
theorem lockDone_eq {s : State} {l : LockRun} (hop : s.dir.op = .locking l) : lockDone s =
    answer l.kind l.header 0 (maskOf l.target)
      (s.withDir { s.dir with lockFlags := l.target, locks := l.target, op := .ready }) := by
  unfold lockDone
  rw [hop]
  rfl

/-- Settles O44: both messages come to `tryLock` once past their own checks. -/
theorem locksChange : Obligations.LocksChange := by
  refine ⟨fun c kind h sectors s free hl hc => ?_, fun s l hrun hop => ?_⟩
  · obtain ⟨u, hexec, hempty, hkey, htry⟩ := exec_lockMessage hl hc
    refine ⟨_, hexec, fun hz => settle_answered (hempty hz), fun hz hf hk => settle_answered (hkey hz hf hk),
      fun hz hk => ⟨fun hop => settle_answered ((htry hz hk).trans (tryLock_busy hop)), fun hop => ?_⟩⟩
    rw [htry hz hk, tryLock_starts hop]
    have hstill (target : List Nat) : Unmoved (startLock kind h target (abandonGather s)).dir.op := by
      simp [Unmoved, startLock, withOp]
    refine ⟨_, by rw [settle_dir_of_op (hstill _)]; rfl, rfl, rfl, rfl, fun a ha => mem_lockTarget ha, fun hready => ?_,
      fun e window hgather => ?_, sameBut_settle_of_op (startLock_touches kind h _ s) (hstill _)⟩
    · rw [settle_results, abandonGather_of_ready hready]
      rfl
    · exact ⟨maskOf e.set, maskOf_is _, (entered_congr rfl (settle_results _)).1 (abandonGather_entered hgather)⟩
  · have hto : (lockDone s).dir = { s.dir with lockFlags := l.target, locks := l.target, op := .ready } := by
      rw [lockDone_eq hop, answer_dir]
      rfl
    have hstill : Unmoved (lockDone s).dir.op := by rw [hto]; simp [Unmoved]
    have hend : (settle (lockDone s)).dir = _ := (settle_dir_of_op hstill).trans hto
    refine ⟨_, maskOf l.target, exec_lockChangeComplete hrun, by rw [hend], by rw [hend], by rw [hend], maskOf_is _, ?_,
      sameBut_settle_of_op (lockDone_touches s) hstill⟩
    rw [lockDone_eq hop]
    exact ((answered_congr rfl rfl).1 (answer_answered _ _ _ _ _)).settle

/-! ### The scan -/

/-- The state a slot's marks give, by the rows of R93. -/
theorem scannedState_is (slot : StoredSlot) :
    (slot.begun = false → slot.complete = false → scannedState slot = .blank) ∧
      (slot.begun = true → slot.complete = true → (∃ e ∈ slot.entry, EntryInRange e) → scannedState slot = .valid) ∧
      ((slot.begun = true ∨ slot.complete = true) →
        ¬ (slot.begun = true ∧ slot.complete = true ∧ ∃ e ∈ slot.entry, EntryInRange e) → scannedState slot = .defective) := by
  obtain ⟨entry, begun, complete⟩ := slot
  have hentry : (match entry with
      | some e => entryOK e
      | none => false) = true ↔ ∃ e ∈ entry, EntryInRange e := by
    cases entry <;> simp [entryOK_iff]
  unfold scannedState
  refine ⟨fun hb hc => ?_, fun hb hc he => ?_, fun hany hnot => ?_⟩
  · simp_all
  · rw [if_neg (by simp_all)]
    exact if_pos (by rw [Bool.and_eq_true, Bool.and_eq_true]; exact ⟨⟨hb, hc⟩, hentry.2 he⟩)
  · rw [if_neg (by rcases hany with hx | hx <;> simp_all)]
    exact if_neg fun hx => by
      rw [Bool.and_eq_true, Bool.and_eq_true] at hx
      obtain ⟨⟨hb, hc⟩, he⟩ := hx
      exact hnot ⟨hb, hc, hentry.1 he⟩

/-- The scan gives each slot the state of its marks, whatever the order of the marks of sectors (R93). -/
theorem cellGet_scanned {d : Directory} (hst : cellsFrom StoredSlot.erased 1024 0 d.storage = true)
    (hmarks : ∀ a ∈ d.eraseMarks, a < 8) (p : Nat) : cellGet .blank (scannedStates d) p = markedState d p := by
  rw [scannedStates_eq, (fillSectors (statesByMarks_canonical hst) hmarks).2 p, cellGet_statesByMarks hst]
  rfl

theorem scanDone_touches (s : State) : SameBut [.slotStates, .locks, .dirOp, .feed] s (scanDone s) := by
  have hdir (states : List (Nat × SlotState)) (locks : List Nat) (op : DirOp) : SameBut [.slotStates, .locks, .dirOp, .feed] s
      (s.withDir { s.dir with slotStates := states, locks := locks, op := op }) := by
    intro p hp
    cases p with
    | slotStates | locks | dirOp | feed => simp at hp
    | _ => simp [Part.same]
  unfold scanDone
  split
  · exact sameBut_ite ((hdir _ _ _).within ((withFeed_sameBut _ _).mono (by decide))) (hdir _ _ _)
  · exact .refl _ s

/-- What the scan's end makes of the directory and the Feed Receiver (R93, R94, R163). -/
theorem scanDone_blocks {s : State} (hop : s.dir.op = .scanning) :
    (scanDone s).dir = { s.dir with slotStates := scannedStates s.dir, locks := s.dir.lockFlags, op := .ready } ∧
      (scanDone s).feed =
        if s.feed.held = true then { s.feed with held := false, alignment := .hunting [] } else s.feed := by
  unfold scanDone
  rw [hop]
  cases hheld : s.feed.held <;> simp [hheld]

theorem exec_scanEnd {s : State} (hrun : Running s) : exec .scanEnd s = .next (settle (scanDone s)) :=
  congrArg Host.Outcome.next (event_of_running hrun _)

/-- Settles O45: the scanned table reads as the marks say, slot by slot. -/
theorem scanSetsSlots : Obligations.ScanSetsSlots := by
  intro s hrun hwf hmarks hop
  obtain ⟨hst, -, -⟩ := (wf_iff s.dir).1 hwf
  obtain ⟨hdir, hfeed⟩ := scanDone_blocks hop
  have hstill : Unmoved (scanDone s).dir.op := by rw [hdir]; simp [Unmoved]
  have hend : (settle (scanDone s)).dir = _ := (settle_dir_of_op hstill).trans hdir
  have hslot (p : Nat) : slotState (settle (scanDone s)).dir p = markedState s.dir p := by
    rw [hend]
    exact cellGet_scanned hst hmarks p
  refine ⟨_, exec_scanEnd hrun, by rw [hend], by rw [hend], fun p slot _ hread => ?_, fun hheld => ?_, fun hheld => ?_,
    sameBut_settle_of_op (scanDone_touches s) hstill⟩
  · subst hread
    rw [hslot]
    unfold markedState
    refine ⟨fun hm => if_pos hm, fun hm => ?_⟩
    rw [if_neg hm]
    exact scannedState_is _
  · rw [settle_feed, hfeed, if_pos hheld]
  · rw [settle_feed, hfeed, if_neg (by simp [hheld])]

end Sys2Proof.Machine

/-! SUPPORT for O53. The arbiter's vocabulary in the terms of the rules: whose a line is, which places and banks it needs, when a
slot is grantable, and when the suspend request is raised and withdrawn. -/

namespace Sys2Proof.Machine

/-! ### Whose a line is -/

theorem bannerLine_iff (s : State) (line : Nat) : bannerLine s = some line ↔ BannerOwns s line := by
  unfold bannerLine BannerOwns
  cases s.paint.banner with
  | none => simp
  | some b => cases s.board <;> simp [eq_comm]

/-- The banner has the first claim on a line, then the clock; the rest are TABLE's (R125). -/
theorem ownerOf_iff (s : State) (line : Nat) : (ownerOf s line = .banner ↔ BannerOwns s line) ∧
    (ownerOf s line = .clock ↔ ¬ BannerOwns s line ∧ line = s.lines - 1) ∧
    (ownerOf s line = .table ↔ ¬ BannerOwns s line ∧ line ≠ s.lines - 1) := by
  rw [← bannerLine_iff]
  unfold ownerOf
  by_cases hbanner : bannerLine s = some line
  · simp [hbanner]
  · by_cases hlast : line = s.lines - 1
    · subst hlast
      simp [hbanner]
    · simp [hbanner, hlast]

theorem ownerOf_table_iff (s : State) (line : Nat) :
    ownerOf s line = .table ↔ ¬ BannerOwns s line ∧ line ≠ s.lines - 1 := (ownerOf_iff s line).2.2

/-! ### The places a line needs -/

theorem recordAt_iff {s : State} {position : Nat} {r : Record} :
    recordAt s position = some r ↔ RecordAtPosition s position r := by
  refine ⟨fun h => ?_, recordAt_of_position⟩
  unfold recordAt at h
  split at h
  · next key hkey => exact ⟨key, hkey, h⟩
  · cases h

theorem neededPlaces_unshown {s : State} (h : s.board ≠ .showing) (line : Nat) : neededPlaces s line = [] := by
  unfold neededPlaces
  split
  · next hb => exact absurd hb h
  all_goals rfl

theorem mem_neededPlaces_calling {s : State} (h : s.board = .showing) (place : Nat) :
    place ∈ neededPlaces s 1 ↔ ∃ r, recordAt s 0 = some r ∧ r.life = .live ∧ r.state ≠ .cancelled ∧
      ∃ st ∈ r.stops, st.skipped = false ∧ st.place = place := by
  unfold neededPlaces
  rw [h]
  simp only [if_true]
  cases hr : recordAt s 0 with
  | none => simp
  | some r =>
    by_cases hlive : r.life = .live ∧ r.state ≠ .cancelled
    · simp [Record.isLive, hlive, paintedStops, and_assoc]
    · have hidle : (r.isLive && decide (r.state ≠ .cancelled)) = false := by
        rw [Bool.eq_false_iff]
        simpa [Record.isLive] using hlive
      simp only [hidle]
      simp only [Bool.false_eq_true, if_false, List.not_mem_nil, Option.some.injEq, exists_eq_left', false_iff]
      exact fun hx => hlive ⟨hx.1, hx.2.1⟩

theorem mem_neededPlaces_departure {s : State} (h : s.board = .showing) {line : Nat} (hline : line ≠ 1) (place : Nat) :
    place ∈ neededPlaces s line ↔ ∃ r, recordAt s (line - 1) = some r ∧ (place = r.destination ∨ r.via = some place) := by
  unfold neededPlaces positionOfLine
  rw [h]
  simp only [if_neg hline]
  cases recordAt s (line - 1) with
  | none => simp
  | some r => simp

/-- The places whose names a compose of the line would read (R127). -/
theorem mem_neededPlaces (s : State) (line place : Nat) : place ∈ neededPlaces s line ↔ NeedsPlace s line place := by
  unfold NeedsPlace
  by_cases hboard : s.board = .showing
  · by_cases hline : line = 1
    · subst hline
      simp [mem_neededPlaces_calling hboard, hboard, recordAt_iff]
    · simp [mem_neededPlaces_departure hboard hline, hboard, hline, recordAt_iff]
  · simp [neededPlaces_unshown hboard, hboard]

/-! ### Banks -/

theorem bankOfSector_eq_iff {sector : Nat} {bank : Bank} : bankOfSector sector = bank ↔ (bank = .a ↔ sector < 4) := by
  unfold bankOfSector
  split <;> cases bank <;> simp_all

theorem bankOfPlace_eq_iff {place : Nat} {bank : Bank} : bankOfPlace place = bank ↔ (bank = .a ↔ place < 512) := by
  have hsector : sectorOf place < 4 ↔ place < 512 := by unfold sectorOf; omega
  rw [bankOfPlace, bankOfSector_eq_iff, hsector]

/-- The bank of a place is free by the report the Paint Engine holds (R69, R88). -/
theorem bankFree_iff (s : State) (place : Nat) : bankFree s (bankOfPlace place) = true ↔ BankFree s place := by
  unfold bankFree BankFree
  by_cases hlow : place < 512
  · rw [bankOfPlace_eq_iff.2 (show Bank.a = .a ↔ place < 512 by simp [hlow])]
    simp [reported, hlow]
  · rw [bankOfPlace_eq_iff.2 (show Bank.b = .a ↔ place < 512 by simp [hlow])]
    simp [reported, hlow, Nat.le_of_not_lt hlow]

/-- When a bank is busy, and with which cause (R88). -/
theorem bankBusy_iff (op : DirOp) (bank : Bank) (cause : BusyCause) :
    bankBusy op bank = some cause ↔ BankBusyFor op bank cause := by
  unfold bankBusy BankBusyFor
  cases op with
  | writing w | suspendedWriting e c k w => simp [bankOfPlace_eq_iff, eq_comm (a := BusyCause.write), and_comm]
  | erasing e c | suspending e c k m => simp [bankOfSector_eq_iff, eq_comm (a := BusyCause.erase), and_comm]
  | scanning | ready | locking l | gathering e w | suspended e c k => simp [eq_comm]

/-! ### Eligible lines and grantable slots -/

theorem isHeld_iff (s : State) : isHeld s = true ↔ HoldHeld s := by
  unfold isHeld HoldHeld
  cases s.paint.hold <;> simp

theorem eligible_iff (s : State) (line : Nat) : eligible s line = true ↔ LineEligible s line := by
  simp only [eligible, LineEligible, Bool.and_eq_true, decide_eq_true_eq, List.all_eq_true, mem_neededPlaces, bankFree_iff]

theorem grantable_iff (s : State) (slot : Slot) : grantable s slot = true ↔ SlotGrantable s slot := by
  cases slot with
  | table =>
    have hheld : isHeld s = false ↔ ¬ HoldHeld s := by rw [← isHeld_iff, Bool.not_eq_true]
    simp [grantable, SlotGrantable, firstEligible, hheld, eligible_iff]
  | scroll | clock | banner => simp [grantable, SlotGrantable]

/-! ### The suspend request -/

theorem eraseBank_iff {op : DirOp} {bank : Bank} :
    eraseBank op = some bank ↔ ∃ c, SectorInHand op c ∧ bankOfSector c.sector = bank := by
  cases op <;> simp [eraseBank, SectorInHand]

theorem eraseBank_none_iff {op : DirOp} : eraseBank op = none ↔ ∀ c, ¬ SectorInHand op c := by
  rw [Option.eq_none_iff_forall_ne_some]
  simp only [ne_eq, eraseBank_iff, not_exists, not_and]
  exact ⟨fun h c hc => h _ c hc rfl, fun h bank c hc => absurd hc (h c)⟩

theorem inEraseBank_iff (c : Current) (place : Nat) : bankOfPlace place = bankOfSector c.sector ↔ InEraseBank c place := by
  unfold InEraseBank
  by_cases hlow : c.sector < 4 <;> simp [bankOfPlace_eq_iff, bankOfSector, hlow]

theorem reported_eraseBank (p : Paint) (c : Current) :
    reported p (bankOfSector c.sector) = if c.sector < 4 then p.bankA else p.bankB := by
  by_cases hlow : c.sector < 4 <;> simp [bankOfSector, reported, hlow]

/-- A dirty line of TABLE that needs the erase bank (R144). -/
theorem waitsForErase_iff (s : State) (c : Current) (line : Nat) : WaitsForErase s c line ↔
    line ∈ s.paint.dirty ∧ ownerOf s line = .table ∧ needsBank s line (bankOfSector c.sector) = true := by
  simp [WaitsForErase, needsBank, mem_neededPlaces, inEraseBank_iff]

/-- The raise, for the sector in hand (R144). -/
theorem raiseCondition_iff_of {s : State} {c : Current} (hc : SectorInHand s.dir.op c) : raiseCondition s = true ↔
    ¬ HoldHeld s ∧ ∃ line, (if c.sector < 4 then s.paint.bankA else s.paint.bankB) = some .erase ∧ WaitsForErase s c line ∧
      ∀ place, NeedsPlace s line place → InEraseBank c place ∨ BankFree s place := by
  unfold raiseCondition
  rw [eraseBank_iff.2 ⟨c, hc, rfl⟩]
  simp only [Bool.and_eq_true, Bool.not_eq_true', ← Bool.not_eq_true, isHeld_iff, decide_eq_true_eq, List.any_eq_true,
    List.all_eq_true, Bool.or_eq_true, reported_eraseBank, mem_neededPlaces, inEraseBank_iff, bankFree_iff, waitsForErase_iff]
  tauto

theorem raiseCondition_iff (s : State) : raiseCondition s = true ↔ MayRaise s := by
  constructor
  · intro h
    have hbank : eraseBank s.dir.op ≠ none := fun hn => by simp [raiseCondition, hn] at h
    obtain ⟨bank, hbank⟩ := Option.ne_none_iff_exists'.1 hbank
    obtain ⟨c, hc, -⟩ := eraseBank_iff.1 hbank
    obtain ⟨hheld, line, hwait⟩ := (raiseCondition_iff_of hc).1 h
    exact ⟨hheld, c, line, hc, hwait⟩
  · rintro ⟨hheld, c, line, hc, hwait⟩
    exact (raiseCondition_iff_of hc).2 ⟨hheld, line, hwait⟩

/-- The withdrawal, for the sector in hand (R144). -/
theorem withdrawCondition_iff_of {s : State} {c : Current} (hc : SectorInHand s.dir.op c) :
    withdrawCondition s = true ↔ HoldHeld s ∨ ∀ line, ¬ WaitsForErase s c line := by
  unfold withdrawCondition
  rw [eraseBank_iff.2 ⟨c, hc, rfl⟩]
  simp only [Bool.or_eq_true, isHeld_iff, Bool.not_eq_true', List.any_eq_false, Bool.and_eq_true, decide_eq_true_eq,
    waitsForErase_iff, not_and]

theorem withdrawCondition_iff (s : State) : withdrawCondition s = true ↔ MustWithdraw s := by
  unfold MustWithdraw
  cases hbank : eraseBank s.dir.op with
  | none =>
    have hnone := eraseBank_none_iff.1 hbank
    exact iff_of_true (by simp [withdrawCondition, hbank]) (.inr fun c line hc => absurd hc (hnone c))
  | some bank =>
    constructor
    · intro h
      by_cases hheld : HoldHeld s
      · exact .inl hheld
      · exact .inr fun c line hc => ((withdrawCondition_iff_of hc).1 h).resolve_left hheld line
    · intro h
      obtain ⟨c, hc, -⟩ := eraseBank_iff.1 hbank
      exact (withdrawCondition_iff_of hc).2 (h.imp_right fun hn line => hn c line hc)

end Sys2Proof.Machine

/-! O53. The decision of an idle arbiter: the first grantable slot of the round, and what each slot's grant composes. -/

namespace Sys2Proof.Machine

/-! ### The choice -/

theorem judgeRequest_hold (s : State) : (judgeRequest s).paint.hold = s.paint.hold := by
  unfold judgeRequest
  dsimp only
  split <;> split <;> simp [reportBanks]

theorem mem_roundAfter (last slot : Slot) : slot ∈ roundAfter last := by
  cases last <;> cases slot <;> decide

section
variable {u : State} {slot : Slot}

theorem decideGrant_none (hjob : u.paint.job = none) (hnone : ∀ x, grantable u x = false) : decideGrant u = u := by
  unfold decideGrant
  rw [hjob, List.find?_eq_none.2 (fun x _ => by simp [hnone x])]

/-- The slot granted is the first grantable one after the slot last granted (R128). -/
theorem decideGrant_first (hjob : u.paint.job = none) (hgrant : grantable u slot = true)
    (hfirst : ∀ before after, roundAfter u.paint.lastGranted = before ++ slot :: after → ∀ x ∈ before, grantable u x = false) :
    decideGrant u = grant slot u := by
  obtain ⟨before, after, hround⟩ := List.append_of_mem (mem_roundAfter u.paint.lastGranted slot)
  have hfind : (roundAfter u.paint.lastGranted).find? (grantable u) = some slot :=
    List.find?_eq_some_iff_append.2 ⟨hgrant, before, after, hround, fun x hx => by simp [hfirst before after hround x hx]⟩
  unfold decideGrant
  rw [hjob]
  dsimp only
  rw [hfind]

/-! ### The grants -/

/-- Only TABLE's grant composes a TABLE job. -/
theorem grant_table_job {line : Nat} {out : Option Composed}
    (h : (grant slot u).paint.job = some (.table line out)) : slot = .table := by
  cases slot with
  | table => rfl
  | scroll | clock => simp [grant, busyWith] at h
  | banner =>
    simp only [grant] at h
    split at h <;> simp [busyWith] at h

/-- A decision while HELD grants no TABLE job (R141). -/
theorem decideGrant_held (hjob : u.paint.job = none) (hheld : isHeld u = true) (line : Nat) (out : Option Composed) :
    (decideGrant u).paint.job ≠ some (.table line out) := by
  intro h
  unfold decideGrant at h
  rw [hjob] at h
  dsimp only at h
  split at h
  · next slot hfind =>
    have hgrant := List.find?_some hfind
    rw [grant_table_job h] at hgrant
    simp [grantable, hheld] at hgrant
  · rw [hjob] at h
    cases h

/-- The line a TABLE grant takes is the lowest eligible one of the dirty line set (R131). -/
theorem firstEligible_some {line : Nat} (h : firstEligible u = some line) : line ∈ u.paint.dirty ∧ eligible u line = true ∧
    (u.paint.dirty.Pairwise (· < ·) → ∀ n ∈ u.paint.dirty, n < line → eligible u n = false) := by
  obtain ⟨helig, before, after, hsplit, hbefore⟩ := List.find?_eq_some_iff_append.1 h
  refine ⟨List.mem_of_find?_eq_some h, helig, fun hsorted n hn hlt => ?_⟩
  rw [hsplit] at hn hsorted
  rcases List.mem_append.1 hn with hn | hn
  · simpa using hbefore n hn
  · rcases List.mem_cons.1 hn with rfl | hn
    · omega
    · have := List.rel_of_pairwise_cons (List.pairwise_append.1 hsorted).2.1 hn
      omega

theorem grant_lastGranted (hgrant : grantable u slot = true) : (grant slot u).paint.lastGranted = slot := by
  cases slot with
  | table =>
    obtain ⟨line, hline⟩ := Option.isSome_iff_exists.1 (Bool.and_eq_true_iff.1 hgrant).2
    simp [grant, hline, busyWith]
  | scroll | clock => rfl
  | banner => simp only [grant]; split <;> rfl

/-- TABLE composes its lowest eligible dirty line, which leaves the set (R131). -/
theorem grant_table (hgrant : grantable u .table = true) : ∃ line, line ∈ u.paint.dirty ∧ eligible u line = true ∧
    (u.paint.dirty.Pairwise (· < ·) → ∀ n ∈ u.paint.dirty, n < line → eligible u n = false) ∧
    (grant .table u).paint.job = some (.table line (some (composeTable u line))) ∧
    ∀ n, n ∈ (grant .table u).paint.dirty ↔ n ∈ u.paint.dirty ∧ n ≠ line := by
  obtain ⟨line, hline⟩ := Option.isSome_iff_exists.1 (Bool.and_eq_true_iff.1 hgrant).2
  obtain ⟨hmem, helig, hlow⟩ := firstEligible_some hline
  exact ⟨line, hmem, helig, hlow, by simp [grant, hline, busyWith], fun n => by simp [grant, hline, busyWith]⟩

theorem grant_dirty_of_ne (h : slot ≠ .table) : (grant slot u).paint.dirty = u.paint.dirty := by
  cases slot with
  | table => exact absurd rfl h
  | scroll | clock => rfl
  | banner => simp only [grant]; split <;> rfl

/-- A step of a MOVING scroll goes to the next offset, with the window of the strip there (R136). -/
theorem scrollStep_moving (strip : List Column) (offset wait : Int) : scrollStep u (.moving strip offset wait) =
    some { offset := nextOffset u strip offset, image := stripWindow u.geometry strip (nextOffset u strip offset) } := rfl

theorem grant_scroll {strip : List Column} {offset wait : Int} (h : u.paint.callingScroll = .moving strip offset wait) :
    (grant .scroll u).paint.job = some (.callingStep (some {
      offset := nextOffset u strip offset
      image := stripWindow u.geometry strip (nextOffset u strip offset) })) := by
  rw [← scrollStep_moving strip offset wait, ← h]
  rfl

/-- What a CLOCK grant composes, by whose the line is and by the board state (R132). -/
theorem clockJob_is (u : State) : (bannerLine u = some (u.lines - 1) → clockJob u = none) ∧
    (bannerLine u ≠ some (u.lines - 1) → (u.board = .starting ∨ u.board = .dark) → clockJob u = some (composeBlank u)) ∧
    (bannerLine u ≠ some (u.lines - 1) → u.board ≠ .starting → u.board ≠ .dark → clockJob u = some (composeClock u)) := by
  unfold clockJob
  refine ⟨fun hb => if_pos hb, fun hb hboard => ?_, fun hb hstart hdark => ?_⟩
  · rw [if_neg hb, if_pos (by simpa using hboard)]
  · rw [if_neg hb, if_neg (by simp [hstart, hdark])]

theorem grant_banner_compose (h : u.paint.bannerCompose = true) : grant .banner u = u.withPaint (busyWith .banner
    (.bannerCompose (bannerJob u)) { u.paint with bannerCompose := false, bannerStep := false }) := if_pos h

theorem bannerJob_some {b : Banner} {line : Nat} (hb : u.paint.banner = some b) (hline : bannerLine u = some line) :
    bannerJob u = some (line, composeBanner u b) := by
  simp [bannerJob, hb, hline]

/-- With no compose to serve, BANNER steps its scroll on the line the banner owns (R136, R140). -/
theorem grant_banner_step (h : u.paint.bannerCompose = false) : (grant .banner u).paint.bannerStep = false ∧
    ∃ out, (grant .banner u).paint.job = some (.bannerStep out) ∧
      ∀ line strip offset wait, bannerLine u = some line → u.paint.bannerScroll = .moving strip offset wait →
        out = some (line, {
          offset := nextOffset u strip offset
          image := stripWindow u.geometry strip (nextOffset u strip offset) }) := by
  have hgrant : grant .banner u = u.withPaint (busyWith .banner _ { u.paint with bannerStep := false }) :=
    if_neg (by simp [h])
  rw [hgrant]
  refine ⟨rfl, _, rfl, fun line strip offset wait hline hscroll => ?_⟩
  rw [hline, hscroll, scrollStep_moving]

end

/-- Settles O53: the vocabulary by its equivalences, and the decision by the grant of the first grantable slot, which the judging
after it leaves. -/
theorem roundRobinGrant : Obligations.RoundRobinGrant := by
  refine ⟨fun s line => ?_, ⟨rfl, rfl, rfl, rfl⟩, bankBusy_iff, grantable_iff,
    fun s => ⟨raiseCondition_iff s, withdrawCondition_iff s⟩, fun s u slot hjob hu => ?_⟩
  · obtain ⟨hbanner, hclock, htable⟩ := ownerOf_iff s line
    exact ⟨bannerLine_iff s line, hbanner, hclock, htable, eligible_iff s line⟩
  have hjobu : u.paint.job = none := by rw [hu, judgeRequest_job, hjob]
  have hlast : u.paint.lastGranted = s.paint.lastGranted := by rw [hu, judgeRequest_lastGranted]
  have hsettle : settle s = judgeRequest (decideGrant u) := by rw [hu]; rfl
  rw [hsettle, judgeRequest_job, judgeRequest_lastGranted, judgeRequest_dirty, judgeRequest_callingStep,
    judgeRequest_clockRequest, judgeRequest_bannerCompose, judgeRequest_bannerStep]
  refine ⟨fun hheld => decideGrant_held hjobu ?_, fun hnone => ?_, fun hgrant hfirst => ?_⟩
  · rw [isHeld_iff, hu]
    exact hheld.imp fun _ hr => by rw [judgeRequest_hold, hr]
  · rw [decideGrant_none hjobu hnone]
    exact ⟨hjobu, hlast⟩
  · rw [← hlast] at hfirst
    rw [decideGrant_first hjobu hgrant hfirst]
    refine ⟨grant_lastGranted hgrant, ?_, grant_dirty_of_ne, ?_, ?_, ?_, ?_⟩
    · rintro rfl
      exact grant_table hgrant
    · rintro rfl
      exact ⟨rfl, fun strip offset wait => grant_scroll⟩
    · rintro rfl
      obtain ⟨hnone, hblank, hclock⟩ := clockJob_is u
      have hout : (grant .clock u).paint.job = some (.clock (clockJob u)) := rfl
      rw [hout]
      exact ⟨rfl, fun hb => by rw [hnone hb], fun hb hboard => by rw [hblank hb hboard],
        fun hb hs hd => by rw [hclock hb hs hd]⟩
    · rintro rfl hcompose
      rw [grant_banner_compose hcompose]
      exact ⟨rfl, rfl, bannerJob u, rfl, fun b line => bannerJob_some⟩
    · rintro rfl hcompose
      exact grant_banner_step hcompose

end Sys2Proof.Machine

/-! O60. Power-on and the reset line, and the release that starts the part. -/

namespace Sys2Proof.Machine

/-! ### The release -/

/-- A part just released, before its first board state: geometry latched, images and layout records those of it, the staff key's
de-bounce started (R96, R146, R148, R190). -/
def releasedPart (geo1 geo0 : Bool) (s : State) : State :=
  { s with
    phase := .running
    elapsed := 0
    geometry := geometryCode geo1 geo0
    paint := Paint.reset (boardLines (geometryCode geo1 geo0))
    frame := FrameStore.reset (geometryCode geo1 geo0)
    key := { s.key with timer := if s.key.input then some 0 else none } }

theorem releaseReset_eq {s : State} (geo1 geo0 : Bool) (h : s.phase = .inReset) :
    releaseReset geo1 geo0 s = settle (selectFirst (releasedPart geo1 geo0 s)) := by
  unfold releaseReset
  rw [h]
  rfl

theorem releaseReset_running {s : State} (geo1 geo0 : Bool) (h : s.phase = .running) : releaseReset geo1 geo0 s = s := by
  unfold releaseReset
  rw [h]

/-- The first board state of a Paint Engine at its reset value marks the lines of TABLE and requests the clock (R126, R155,
R158). -/
theorem selectFirst_of_reset {u : State} (hpaint : u.paint = Paint.reset u.lines) : selectFirst u =
    { u with
      board := deriveBoard u.feed.station u.time.freshness u.time.valid
      paint := repaintedReset u.lines } := by
  have hbanner : u.paint.banner = none := by rw [hpaint]; rfl
  have hbefore : bannerLine u = none := by simp [bannerLine, hbanner]
  have hafter (b : BoardState) : bannerLine (u.withBoard b) = none := by simp [bannerLine, hbanner]
  obtain ⟨job, heq, hslot⟩ := applyBoard_paint (deriveBoard u.feed.station u.time.freshness u.time.valid) u
  have hjob : job = none := by
    rw [hpaint] at hslot
    simpa [Paint.reset] using hslot
  have hrepaint : boardPaint none none (List.range (u.lines - 1)) u.paint = repaintedReset u.lines := by
    rw [hpaint]
    show { Paint.reset u.lines with dirty := setInsertAll (List.range (u.lines - 1)) [], clockRequest := true } = _
    rw [setInsertAll_range]
    rfl
  unfold selectFirst
  rw [heq, hjob, hbefore, hafter, tableLines, hrepaint]
  rfl

/-- A release of a part at its reset values, before the arbiter's decision: the board state is STARTING (R154, R158). -/
theorem selectFirst_released {s : State} (geo1 geo0 : Bool) (htime : s.time = Timekeeper.reset)
    (hfeed : s.feed = FeedReceiver.reset) : selectFirst (releasedPart geo1 geo0 s) =
      { releasedPart geo1 geo0 s with
        board := .starting
        paint := repaintedReset (boardLines (geometryCode geo1 geo0)) } := by
  have hboard : deriveBoard (releasedPart geo1 geo0 s).feed.station (releasedPart geo1 geo0 s).time.freshness
      (releasedPart geo1 geo0 s).time.valid = .starting := by
    show deriveBoard s.feed.station s.time.freshness s.time.valid = .starting
    rw [htime, hfeed]
    rfl
  rw [selectFirst_of_reset rfl, hboard]
  rfl

/-- What a release touches before the arbiter's decision. -/
theorem selectFirst_released_touches {s : State} (geo1 geo0 : Bool) (htime : s.time = Timekeeper.reset)
    (hfeed : s.feed = FeedReceiver.reset) : SameBut (([.phase, .elapsed, .geometry, .key, .board, .frame, .hold, .banner,
      .callingScroll, .bannerScroll, .layouts] : List Part) ++ arbiterParts) s (selectFirst (releasedPart geo1 geo0 s)) := by
  rw [selectFirst_released geo1 geo0 htime hfeed]
  intro p hp
  cases p with
  | settings | feed | unpacker | results | time | slots | order | window | storage | lockFlags | slotStates | counts | locks
  | freeIndex | pending => rfl
  | _ => simp [arbiterParts] at hp

/-- Settles O60: a hard reset field by field, and a release as the first board state of a part at its reset values. -/
theorem resetsHoldAndRelease : Obligations.ResetsHoldAndRelease := by
  refine ⟨fun c s hc => ?_, fun geo1 geo0 s => ⟨fun hrun => ?_, fun hreset hscan _ htime hfeed => ?_⟩⟩
  · obtain ⟨hstorage, hmarks, -⟩ := cutStorage_same (Config.lockCutTakesNew s.freeIndex) s.dir
    have hexec : exec c s = .next (hardReset s) := by
      rcases hc with rfl | rfl <;> rfl
    exact ⟨_, hexec, rfl, rfl, rfl, rfl, rfl, rfl, rfl, rfl, rfl, rfl,
      ⟨rfl, rfl, rfl, rfl, hstorage, hmarks, cutStorage_lockFlags _ s.dir⟩, rfl⟩
  · exact congrArg Host.Outcome.next (releaseReset_running geo1 geo0 hrun)
  · have hexec : exec (.resetRelease geo1 geo0) s = .next (settle (selectFirst (releasedPart geo1 geo0 s))) :=
      congrArg Host.Outcome.next (releaseReset_eq geo1 geo0 hreset)
    have htouch := selectFirst_released_touches geo1 geo0 htime hfeed
    generalize hu : selectFirst (releasedPart geo1 geo0 s) = u at hexec htouch
    rw [selectFirst_released geo1 geo0 htime hfeed] at hu
    have hdir : u.dir = s.dir := by subst hu; rfl
    have hstill : Unmoved u.dir.op := by rw [hdir, hscan]; simp [Unmoved]
    have hlines : (settle u).lines = boardLines (geometryCode geo1 geo0) := by
      unfold State.lines
      rw [settle_geometry]
      subst hu
      rfl
    refine ⟨_, hexec, ?_, ?_, ?_, ?_, ?_, ?_, ?_, ?_, ?_, ?_, (sameBut_settle htouch).mono (by decide)⟩
    · rw [settle_phase]; subst hu; rfl
    · rw [settle_elapsed]; subst hu; rfl
    · rw [settle_geometry]; subst hu; rfl
    · rw [settle_board]; subst hu; rfl
    · rw [settle_dir_of_op hstill, hdir]
    · rw [hlines]
      exact settle_nowDirty (by subst hu; rfl)
    · rw [settle_frame, settle_geometry]; subst hu; rfl
    · rw [settle_paint_layouts, hlines]; subst hu; rfl
    · rw [settle_key]; subst hu; rfl
    · rw [settle_key]; subst hu; rfl

end Sys2Proof.Machine

/-! SUPPORT for O10. The Paint Engine's invariant by its parts, the two scrolls taken alike, and the images that every compose and
step makes. -/

namespace Sys2Proof.Machine

/-! ### The invariant by its parts -/

/-- The widest strip of a scroll: a calling text within its cap, a banner of 160 glyphs (R113, R118). -/
def stripMost : ScrollId → Nat
  | .calling => 4096
  | .banner => 1439

/-- The pending step of a scroll (R124). -/
def pendingStep (p : Paint) : ScrollId → Bool
  | .calling => p.callingStep
  | .banner => p.bannerStep

/-- A pending step of a scroll in this state: a calling step of a MOVING scroll, a banner step of one not STILL (R135, R137). -/
def StepAllowed : ScrollId → Scroll → Prop
  | .calling, sc => sc.isMoving = true
  | .banner, sc => sc ≠ .still

/-- The slot of a scroll owns its line: line 1 for the calling scroll, any for the banner's (R125, R137). -/
def ScrollHome (s : State) : ScrollId → Prop
  | .calling => ownerOf s 1 = .table
  | .banner => bannerLine s ≠ none

/-- A scroll in range, its pending step allowed, and its slot on its line (R133 to R137). -/
def ScrollInOrder (s : State) (x : ScrollId) : Prop :=
  ScrollOK s (stripMost x) (scrollOf s.paint x) ∧ (pendingStep s.paint x = true → StepAllowed x (scrollOf s.paint x)) ∧
    (scrollOf s.paint x ≠ .still → ScrollHome s x)

/-- The Paint Engine and the Frame Store in order, as `PaintInv` says it, the two scrolls taken alike. -/
structure PaintOK (s : State) : Prop where
  geometry : s.geometry ≤ 3
  dirty : SetBelow (s.lines - 1) s.paint.dirty
  layouts : s.paint.layouts.length = s.lines
  shown : s.frame.shown.length = s.lines ∧ ∀ i ∈ s.frame.shown, ImageOK s i
  pending : s.frame.pending.length = s.lines ∧ ∀ p ∈ s.frame.pending, ∀ i ∈ p, ImageOK s i
  job : ∀ j, s.paint.job = some j → s.paint.lastGranted = j.slot ∧ JobOK s j
  banner : ∀ b, s.paint.banner = some b → nameOK 160 b.text = true ∧ b.width = textWidth .large b.text
  scroll : ∀ x, ScrollInOrder s x
  compose : s.paint.bannerCompose = true → bannerLine s ≠ none

theorem paintInv_iff (s : State) : PaintInv s ↔ PaintOK s := by
  constructor
  · rintro ⟨hgeo, hdirty, hlay, hshown, hpend, hjob, hban, hcall, hbs, hcstep, hbstep, hchome, hbhome, hcomp⟩
    refine ⟨hgeo, hdirty, hlay, hshown, hpend, hjob, hban, fun x => ?_, hcomp⟩
    cases x
    exacts [⟨hcall, hcstep, hchome⟩, ⟨hbs, hbstep, hbhome⟩]
  · intro h
    obtain ⟨hcall, hcstep, hchome⟩ := h.scroll .calling
    obtain ⟨hbs, hbstep, hbhome⟩ := h.scroll .banner
    exact ⟨h.geometry, h.dirty, h.layouts, h.shown, h.pending, h.job, h.banner, hcall, hbs, hcstep, hbstep, hchome, hbhome,
      h.compose⟩

/-! ### Scrolls -/

theorem ScrollOK.congr {s t : State} (hgeo : t.geometry = s.geometry) {most : Nat} {sc : Scroll} (h : ScrollOK s most sc) :
    ScrollOK t most sc := by
  cases sc with
  | still | paused => exact h
  | moving strip offset wait => exact ⟨h.1, hgeo ▸ h.2⟩

/-- A scroll that is STILL with no step pending is in order anywhere. -/
theorem ScrollInOrder.stopped {s : State} {x : ScrollId} (hscroll : scrollOf s.paint x = .still)
    (hstep : pendingStep s.paint x = false) : ScrollInOrder s x := by
  unfold ScrollInOrder
  rw [hscroll, hstep]
  exact ⟨trivial, nofun, fun hne => absurd rfl hne⟩

/-- A scroll left as it was is in order while its slot keeps its line. -/
theorem ScrollInOrder.kept {s t : State} {x : ScrollId} (h : ScrollInOrder s x) (hgeo : t.geometry = s.geometry)
    (hscroll : scrollOf t.paint x = scrollOf s.paint x) (hstep : pendingStep t.paint x = pendingStep s.paint x)
    (hhome : ScrollHome s x → ScrollHome t x) : ScrollInOrder t x := by
  obtain ⟨hrange, hallowed, hline⟩ := h
  unfold ScrollInOrder
  rw [hscroll, hstep]
  exact ⟨hrange.congr hgeo, hallowed, fun hne => hhome (hline hne)⟩

/-! ### A step under way and its scroll -/

/-- A scroll has gone on as a running step allows: MOVING on the same strip, or stopped (R136, R137). -/
def Scroll.GoesOn : Scroll → Scroll → Prop
  | _, .still => True
  | .paused _ _, _ => True
  | .moving strip _ _, .moving strip' _ _ => strip' = strip
  | .moving _ _ _, .paused _ _ => False
  | .still, .moving _ _ _ => False
  | .still, .paused _ _ => False

theorem Scroll.goesOn_refl (sc : Scroll) : sc.GoesOn sc := by
  cases sc <;> trivial

theorem Scroll.goesOn_still (sc : Scroll) : sc.GoesOn .still := by
  cases sc <;> trivial

theorem ImageOK.congr {s t : State} (hgeo : t.geometry = s.geometry) {image : List Column} (h : ImageOK s image) :
    ImageOK t image := h.trans (congrArg boardWidth hgeo).symm

theorem StepOK.goesOn {s t : State} {sc sc' : Scroll} {r : StepResult} (h : StepOK s sc r) (hgeo : t.geometry = s.geometry)
    (hsc : sc.GoesOn sc') : StepOK t sc' r := by
  obtain ⟨himage, hoffset⟩ := h
  cases sc' with
  | still => exact ⟨himage.congr hgeo, trivial⟩
  | paused strip wait => cases sc <;> contradiction
  | moving strip offset wait =>
    cases sc with
    | still | paused => contradiction
    | moving strip' offset' wait' =>
      have hstrip : strip = strip' := hsc
      subst hstrip
      exact ⟨himage.congr hgeo, hgeo ▸ hoffset⟩

/-- A job stays in order while its scroll goes on. -/
theorem JobOK.goesOn {s t : State} {j : Job} (h : JobOK s j) (hgeo : t.geometry = s.geometry)
    (hsc : ∀ x, (scrollOf s.paint x).GoesOn (scrollOf t.paint x)) : JobOK t j := by
  have hlines : t.lines = s.lines := congrArg boardLines hgeo
  cases j with
  | table line out =>
    exact ⟨hlines ▸ h.1, fun c hc => ⟨(h.2 c hc).1.congr hgeo, (h.2 c hc).2⟩⟩
  | callingStep out => exact fun r hr => (h r hr).goesOn hgeo (hsc .calling)
  | clock out => exact fun c hc => (h c hc).congr hgeo
  | bannerCompose out =>
    intro p hp
    obtain ⟨hline, hi, hstrip⟩ := h p hp
    exact ⟨hlines ▸ hline, hi.congr hgeo, hstrip⟩
  | bannerStep out =>
    intro p hp
    obtain ⟨hline, hstep⟩ := h p hp
    exact ⟨hlines ▸ hline, hstep.goesOn hgeo (hsc .banner)⟩

/-- A job that places nothing is in order wherever the job was. -/
theorem JobOK.void {s : State} {j : Job} (h : JobOK s j) : JobOK s j.void := by
  cases j with
  | table line out => exact ⟨h.1, nofun⟩
  | callingStep out | clock out | bannerCompose out | bannerStep out => exact nofun

theorem Job.void_slot (j : Job) : j.void.slot = j.slot := by cases j <;> rfl

/-! ### What leaves the Paint Engine -/

/-- The parts the invariant reads, but for the dirty line set. -/
def paintParts : List Part :=
  [.geometry, .board, .requests, .arbiter, .banner, .callingScroll, .bannerScroll, .layouts, .frame]

/-- A change that leaves the Paint Engine and its images but for the dirty line set, which it leaves in range. -/
theorem PaintOK.of_marked {l : List Part} {s t : State} (h : PaintOK s) (hs : SameBut l s t)
    (hd : SetBelow (s.lines - 1) t.paint.dirty) (hl : ∀ p ∈ paintParts, p ∉ l := by decide) : PaintOK t := by
  have hgeo : t.geometry = s.geometry := hs .geometry (hl _ (by decide))
  have hboard : t.board = s.board := hs .board (hl _ (by decide))
  have hbanner : t.paint.banner = s.paint.banner := hs .banner (hl _ (by decide))
  have hlay : t.paint.layouts = s.paint.layouts := hs .layouts (hl _ (by decide))
  have hframe : t.frame = s.frame := hs .frame (hl _ (by decide))
  obtain ⟨hcstep, -, hcompose, hbstep⟩ := hs .requests (hl _ (by decide))
  obtain ⟨hjob, hlast⟩ := hs .arbiter (hl _ (by decide))
  have hscroll (x : ScrollId) : scrollOf t.paint x = scrollOf s.paint x := by
    cases x
    exacts [hs .callingScroll (hl _ (by decide)), hs .bannerScroll (hl _ (by decide))]
  have hstep (x : ScrollId) : pendingStep t.paint x = pendingStep s.paint x := by
    cases x
    exacts [hcstep, hbstep]
  have hlines : t.lines = s.lines := congrArg boardLines hgeo
  have hline : bannerLine t = bannerLine s := bannerLine_congr hboard hgeo hbanner
  have hhome (x : ScrollId) (hx : ScrollHome s x) : ScrollHome t x := by
    cases x
    exacts [(ownerOf_congr hboard hgeo hbanner 1).trans hx, hline.trans_ne hx]
  refine ⟨hgeo ▸ h.geometry, hlines ▸ hd, by rw [hlay, hlines, h.layouts], ?_, ?_, fun j hj => ?_, fun b hb => ?_,
    fun x => (h.scroll x).kept hgeo (hscroll x) (hstep x) (hhome x), fun hc => ?_⟩
  · rw [hframe, hlines]
    exact ⟨h.shown.1, fun i hi => (h.shown.2 i hi).congr hgeo⟩
  · rw [hframe, hlines]
    exact ⟨h.pending.1, fun p hp i hi => (h.pending.2 p hp i hi).congr hgeo⟩
  · obtain ⟨hslot, hok⟩ := h.job j (hjob ▸ hj)
    exact ⟨hlast ▸ hslot, hok.goesOn hgeo fun x => hscroll x ▸ Scroll.goesOn_refl _⟩
  · exact h.banner b (hbanner ▸ hb)
  · rw [hline]
    exact h.compose (hcompose ▸ hc)

/-- A change that leaves the Paint Engine and its images. -/
theorem PaintOK.of_same {l : List Part} {s t : State} (h : PaintOK s) (hs : SameBut l s t)
    (hl : ∀ p ∈ Part.dirty :: paintParts, p ∉ l := by decide) : PaintOK t := by
  have hdirty : t.paint.dirty = s.paint.dirty := hs .dirty (hl _ (by decide))
  exact h.of_marked hs (hdirty ▸ h.dirty) fun p hp => hl p (List.mem_cons_of_mem _ hp)

/-! ### What a compose makes -/

/-- A compose that fits the board, its strip within a cap (R98, R113, R118). -/
def ComposedOK (s : State) (most : Nat) (c : Composed) : Prop :=
  ImageOK s c.image ∧ StripOK most c.strip

theorem length_glyphColumns (f : Font) (c : Byte) : (glyphColumns f c).length = glyphWidth f c := by
  simp [glyphColumns]

theorem length_textColumns (f : Font) (t : Text) : (textColumns f t).length = textWidth f t := by
  induction t with
  | nil => rfl
  | cons c rest ih =>
    cases rest with
    | nil => simp [textColumns, textWidth, length_glyphColumns]
    | cons d r =>
      simp only [textColumns, List.length_append, List.length_cons, length_glyphColumns, ih]
      simp [textWidth]
      omega

theorem Shows.imageOK {s : State} {fields : List (Nat × List Column)} {image : List Column} (h : Shows s fields image) :
    ImageOK s image := h.1

theorem WindowOf.imageOK {s : State} {strip : List Column} {offset : Int} {image : List Column}
    (h : WindowOf s strip offset image) : ImageOK s image := h.1

theorem darkImage_ok (s : State) : ImageOK s (darkImage s.geometry) := (shows_dark s).imageOK

theorem setText_ok {s : State} {image : List Column} (h : ImageOK s image) (f : Font) (start : Nat) (t : Text) :
    ImageOK s (setText f start t image) := (length_setColumns _ _ image).trans h

/-- A line without a strip is in order with its image. -/
theorem composedOK_still {s : State} {most : Nat} {c : Composed} (himage : ImageOK s c.image) (hstrip : c.strip = none) :
    ComposedOK s most c := ⟨himage, fun columns hc => by rw [hstrip] at hc; cases hc⟩

theorem StillLine.ok {s : State} {fields : List (Nat × List Column)} {layout : LayoutRecord} {c : Composed} {most : Nat}
    (h : StillLine s fields layout c) : ComposedOK s most c := by
  obtain ⟨hshows, -, hstrip⟩ := h
  exact composedOK_still hshows.imageOK hstrip

/-- A text on a line of its own is a strip only when it is wider than the board, and then as wide as the text (R113, R118). -/
theorem composeText_ok (s : State) (start : Nat) {t : Text} (layout : LineMode → LayoutRecord) {most : Nat}
    (ht : textWidth .large t ≤ most) : ComposedOK s most (composeText s start t layout) := by
  obtain ⟨hfits, hwide⟩ := composeText_composed s start t layout
  rcases Nat.lt_or_ge s.columns (textWidth .large t) with hlt | hle
  · obtain ⟨hwindow, -, hstrip⟩ := hwide hlt
    refine ⟨hwindow.imageOK, fun columns hc => ?_⟩
    rw [hstrip] at hc
    cases hc
    rw [length_textColumns]
    exact ⟨by omega, ht⟩
  · obtain ⟨hshows, -, hstrip⟩ := hfits hle
    exact composedOK_still hshows.imageOK hstrip

theorem setPlatform_imageOK {s : State} {image : List Column} (h : ImageOK s image) (t : Text) :
    ImageOK s (setPlatform s t image).2 := by
  unfold setPlatform
  dsimp only
  split_ifs <;> exact setText_ok h _ _ _

theorem composeDeparture_ok (s : State) (r : Record) (most : Nat) : ComposedOK s most (composeDeparture s r) := by
  have hbase (f : Font) (name status : Text) (a b : Nat) : ImageOK s (setText .large a status (setText f b name
      (setText .large 0 (clockText (displayedMinute s.settings.origin r.scheduled)) (darkImage s.geometry)))) :=
    setText_ok (setText_ok (setText_ok (darkImage_ok s) _ _ _) _ _ _) _ _ _
  unfold composeDeparture
  dsimp only
  split
  · exact composedOK_still (setPlatform_imageOK (hbase ..) _) rfl
  · exact composedOK_still (hbase ..) rfl

theorem composeScreen_ok (s : State) (which : ScreenText) (most : Nat) : ComposedOK s most (composeScreen s which) := by
  obtain ⟨hfits, hwide⟩ := composeScreen_composed s which
  rcases Nat.lt_or_ge s.columns (textWidth .large (screenWords which)) with hlt | hle
  · exact (hwide hlt).ok
  · exact (hfits hle).ok

theorem composeBlank_ok (s : State) (most : Nat) : ComposedOK s most (composeBlank s) := (composeBlank_still s).ok

theorem composeEmpty_ok (s : State) (most : Nat) : ComposedOK s most (composeEmpty s) :=
  composedOK_still (centredText_shows ..).imageOK rfl

theorem composeCalling_ok (s : State) (r : Record) : ComposedOK s 4096 (composeCalling s r) :=
  composeText_ok s 0 _ (callingText_fits s.dir r)

theorem composeTable_ok (s : State) (line : Nat) : ComposedOK s 4096 (composeTable s line) := by
  have hrecord (position : Nat) : ComposedOK s 4096 (match recordAt s position with
      | some r => composeDeparture s r
      | none => if line = 0 then composeEmpty s else composeBlank s) := by
    split
    · exact composeDeparture_ok ..
    · split
      · exact composeEmpty_ok ..
      · exact composeBlank_ok ..
  unfold composeTable
  split
  · split
    · split
      · exact composeCalling_ok ..
      · exact composeBlank_ok ..
    · exact hrecord _
  · split
    · exact composeScreen_ok ..
    · exact composeBlank_ok ..
  · split
    · exact composeScreen_ok ..
    · exact composeBlank_ok ..
  all_goals exact composeBlank_ok ..

theorem composeClock_imageOK (s : State) : ImageOK s (composeClock s).image := by
  unfold composeClock
  split <;> exact (centredText_shows ..).imageOK

theorem clockJob_imageOK {s : State} {c : Composed} (h : clockJob s = some c) : ImageOK s c.image := by
  unfold clockJob at h
  split_ifs at h <;> cases h
  · exact (composeBlank_ok s 0).1
  · exact composeClock_imageOK s

/-- A banner's text is at most 160 glyphs of 8 columns with their gaps (R118, R138). -/
theorem bannerText_width_le {t : Text} (h : nameOK 160 t = true) : textWidth .large t ≤ 1439 := by
  obtain ⟨⟨hpos, hmost⟩, -⟩ := (glyphText_iff 160 t).1 h
  have hsum : (t.map (glyphWidth .large)).sum ≤ t.length * 8 := by
    simpa using List.sum_le_card_nsmul (t.map (glyphWidth .large)) 8 fun w hw => by
      obtain ⟨c, -, rfl⟩ := List.mem_map.1 hw
      exact glyphWidth_le c
  unfold textWidth
  omega

theorem composeBanner_ok (s : State) {b : Banner} (h : nameOK 160 b.text = true) : ComposedOK s 1439 (composeBanner s b) :=
  composeText_ok s _ _ (bannerText_width_le h)

/-! ### Lines -/

theorem lines_pos (s : State) : 4 ≤ s.lines := boardLines_pos s.geometry

theorem bannerLine_lt {s : State} {line : Nat} (h : bannerLine s = some line) : line < s.lines := by
  have := lines_pos s
  unfold bannerLine at h
  split at h <;> cases h <;> omega

end Sys2Proof.Machine

/-! SUPPORT for O10. The table's marks, the turn of the board state, the hold and the banner keep the Paint Engine in order. -/

namespace Sys2Proof.Machine

/-- A choice between two states that are both in order. -/
theorem paintOK_ite {p : Prop} [Decidable p] {s t : State} (hs : PaintOK s) (ht : PaintOK t) : PaintOK (if p then s else t) := by
  split
  · exact hs
  · exact ht

/-! ### The marks of the table -/

theorem answer_paintOK {s : State} (h : PaintOK s) (kind : Byte) (hd : Header) (o d : Nat) : PaintOK (answer kind hd o d s) :=
  h.of_same (answer_sameBut kind hd o d s)

/-- Lines marked among those of TABLE (R126). -/
theorem markLines_paintOK {l : List Nat} {s : State} (h : PaintOK s) (hl : ∀ n ∈ l, n < s.lines - 1) :
    PaintOK (markLines l s) :=
  { h with dirty := setInsertAll_below h.dirty hl }

theorem tableLines_lt {s : State} {n : Nat} (h : n ∈ tableLines s) : n < s.lines - 1 := List.mem_range.1 h

theorem departureLines_lt {s : State} {n : Nat} (h : n ∈ departureLines s) : n < s.lines - 1 :=
  tableLines_lt (List.mem_filter.1 h).1

/-- A change of the records marks lines of TABLE alone (R24, R25). -/
theorem changeMarks_lt {l : List (Option Record)} {s : State} {n : Nat} (h : n ∈ changeMarks l s) : n < s.lines - 1 := by
  have hpos : 4 ≤ boardLines s.geometry := lines_pos s
  show n < boardLines s.geometry - 1
  rcases List.mem_append.1 h with hn | hn
  · obtain ⟨-, -, -, -, hle, -⟩ := mem_orderMarks.1 hn
    omega
  · obtain ⟨p, -, -, -, hp, -, -, -, -, hcase⟩ := mem_contentMarks.1 hn
    unfold shownPositions at hp
    omega

theorem retable_paintOK {l : List (Option Record)} {s : State} (h : PaintOK s) : PaintOK (retable l s) :=
  h.of_marked (retable_sameBut l s) (setInsertAll_below h.dirty fun _ => changeMarks_lt)

theorem sweep_paintOK {s : State} (h : PaintOK s) : PaintOK (sweep s) :=
  retable_paintOK ((h.of_same (recount_sameBut _ s)).of_same (closeWindow_sameBut _))

theorem sweepAtZero_paintOK {left : Bool} {s : State} (h : PaintOK s) : PaintOK (sweepAtZero left s) :=
  paintOK_ite (sweep_paintOK h) h

theorem createRecord_paintOK {r : Record} {l : List (Option Record)} {s : State} (h : PaintOK s) :
    PaintOK (createRecord r l s) :=
  retable_paintOK (h.of_same (recount_sameBut _ s))

theorem replaceRecord_paintOK {old new : Record} {s : State} (h : PaintOK s) : PaintOK (replaceRecord old new s) :=
  retable_paintOK (h.of_same (recount_sameBut _ s))

theorem postCreate_paintOK {hd : Header} {f : PostFields} {s : State} (h : PaintOK s) : PaintOK (postCreate hd f s) := by
  unfold postCreate
  dsimp only
  split
  · exact answer_paintOK (createRecord_paintOK h) _ _ _ _
  · split
    · exact answer_paintOK h _ _ _ _
    · split
      · exact answer_paintOK (createRecord_paintOK (sweep_paintOK h)) _ _ _ _
      · exact answer_paintOK (sweep_paintOK h) _ _ _ _

theorem acceptPost_paintOK {hd : Header} {f : PostFields} {s : State} (h : PaintOK s) : PaintOK (acceptPost hd f s) := by
  have refused (o d : Nat) : PaintOK (answer kindPost hd o d s) := answer_paintOK h _ _ _ _
  unfold acceptPost
  dsimp only
  refine paintOK_ite ?_ (refused _ _)
  split
  · split
    · exact refused _ _
    · exact postCreate_paintOK h
  · split
    · exact refused _ _
    · exact refused _ _
    · split
      · exact refused _ _
      · exact answer_paintOK (replaceRecord_paintOK h) _ _ _ _

theorem acceptAmend_paintOK {hd : Header} {f : AmendFields} {s : State} (h : PaintOK s) : PaintOK (acceptAmend hd f s) := by
  have refused (o d : Nat) : PaintOK (answer kindAmend hd o d s) := answer_paintOK h _ _ _ _
  unfold acceptAmend
  refine paintOK_ite ?_ (refused _ _)
  split
  · exact refused _ _
  · split
    · exact refused _ _
    · split
      · exact refused _ _
      · exact refused _ _
      · exact paintOK_ite (answer_paintOK (retable_paintOK h) _ _ _ _) (refused _ _)

theorem retireRecord_paintOK {key : Nat} {s : State} (h : PaintOK s) : PaintOK (retireRecord key s) :=
  sweepAtZero_paintOK (retable_paintOK (h.of_same (touchWindow_sameBut s)))

theorem acceptRetire_paintOK {hd : Header} {key : Nat} {s : State} (h : PaintOK s) : PaintOK (acceptRetire hd key s) := by
  unfold acceptRetire
  refine paintOK_ite ?_ (answer_paintOK h _ _ _ _)
  split
  · exact answer_paintOK h _ _ _ _
  · exact answer_paintOK (paintOK_ite (retireRecord_paintOK h) h) _ _ _ _

theorem acceptClear_paintOK {hd : Header} {s : State} (h : PaintOK s) : PaintOK (acceptClear hd s) :=
  answer_paintOK (retable_paintOK ((h.of_same (recount_sameBut _ s)).of_same (closeWindow_sameBut _))) _ _ _ _

theorem windowExpiry_paintOK {s : State} (h : PaintOK s) : PaintOK (windowExpiry s) := by
  unfold windowExpiry
  split
  · exact h
  · exact sweep_paintOK h

/-! ### The stages of a minute event or step event -/

theorem withTime_paintOK {s : State} (h : PaintOK s) (v : Timekeeper) : PaintOK (s.withTime v) :=
  h.of_same (withTime_sameBut v s)

/-- A pass over the records (R42, R44). -/
theorem pass_paintOK {left : Bool} {l : List (Option Record)} {s : State} (h : PaintOK s) :
    PaintOK (retable l (touchIf left s)) :=
  retable_paintOK (h.of_same (touchIf_sameBut left s))

theorem passOrigin_paintOK {p : OriginPassage} {s : State} (h : PaintOK s) : PaintOK (passOrigin p s).1 := by
  unfold passOrigin
  split
  · exact h
  · exact withTime_paintOK h _
  · split
    · exact withTime_paintOK h _
    · rw [rollover_eq]
      exact pass_paintOK h

theorem repaintRequests_paintOK {s : State} (h : PaintOK s) : PaintOK (repaintRequests s) :=
  { markLines_paintOK h fun _ => departureLines_lt with }

theorem timeStages_paintOK {p : OriginPassage} {s : State} (h : PaintOK s) : PaintOK (timeStages p s) := by
  rw [timeStages_eq, agedTable, ageTable_eq]
  exact repaintRequests_paintOK (sweepAtZero_paintOK (pass_paintOK (withTime_paintOK (passOrigin_paintOK h) _)))

theorem advanceMinute_paintOK {s : State} (h : PaintOK s) : PaintOK (advanceMinute s) :=
  paintOK_ite (timeStages_paintOK (withTime_paintOK h _)) h

/-! ### Lines that change hands -/

/-- A job revoked places nothing (R130). -/
theorem revokeJob_paintOK {s : State} (h : PaintOK s) : PaintOK (revokeJob s) := by
  unfold revokeJob
  split
  · exact h
  · next j hj =>
    obtain ⟨hslot, hok⟩ := h.job j hj
    split
    · refine paintOK_ite h { h with job := ?_ }
      rintro _ ⟨⟩
      exact ⟨hslot.trans j.void_slot.symm, hok.void⟩
    · exact h

/-- What becomes of a scroll when lines change hands: stopped with its step, or left as it was while its slot keeps its line
(R137). -/
def ScrollHandedOn (s t : State) (x : ScrollId) : Prop :=
  (scrollOf t.paint x = .still ∧ pendingStep t.paint x = false) ∨
    (scrollOf t.paint x = scrollOf s.paint x ∧ pendingStep t.paint x = pendingStep s.paint x ∧
      (ScrollHome s x → ScrollHome t x))

theorem ScrollHandedOn.inOrder {s t : State} {x : ScrollId} (hx : ScrollHandedOn s t x) (h : ScrollInOrder s x)
    (hgeo : t.geometry = s.geometry) : ScrollInOrder t x := by
  rcases hx with ⟨hscroll, hstep⟩ | ⟨hscroll, hstep, hhome⟩
  · exact .stopped hscroll hstep
  · exact h.kept hgeo hscroll hstep hhome

theorem ScrollHandedOn.goesOn {s t : State} {x : ScrollId} (hx : ScrollHandedOn s t x) :
    (scrollOf s.paint x).GoesOn (scrollOf t.paint x) := by
  rcases hx with ⟨hscroll, -⟩ | ⟨hscroll, -⟩
  · exact hscroll ▸ Scroll.goesOn_still _
  · exact hscroll ▸ Scroll.goesOn_refl _

/-- A change of the marks, the banner, the requests and the scrolls by which lines change hands, the board state with them. -/
theorem PaintOK.handedOn {s t : State} (h : PaintOK s) (hgeo : t.geometry = s.geometry) (hframe : t.frame = s.frame)
    (hlay : t.paint.layouts = s.paint.layouts) (harbiter : Part.arbiter.same s t) (hdirty : SetBelow (s.lines - 1) t.paint.dirty)
    (hbanner : ∀ b, t.paint.banner = some b → nameOK 160 b.text = true ∧ b.width = textWidth .large b.text)
    (hscroll : ∀ x, ScrollHandedOn s t x) (hcompose : t.paint.bannerCompose = true → (bannerLine t).isSome = true) :
    PaintOK t := by
  have hlines : t.lines = s.lines := congrArg boardLines hgeo
  obtain ⟨hjob, hlast⟩ := harbiter
  refine ⟨hgeo ▸ h.geometry, hlines ▸ hdirty, by rw [hlay, hlines, h.layouts], ?_, ?_, fun j hj => ?_, hbanner,
    fun x => (hscroll x).inOrder (h.scroll x) hgeo, fun hc => Option.ne_none_iff_isSome.2 (hcompose hc)⟩
  · rw [hframe, hlines]
    exact ⟨h.shown.1, fun i hi => (h.shown.2 i hi).congr hgeo⟩
  · rw [hframe, hlines]
    exact ⟨h.pending.1, fun p hp i hi => (h.pending.2 p hp i hi).congr hgeo⟩
  · obtain ⟨hslot, hok⟩ := h.job j (hjob ▸ hj)
    exact ⟨hlast ▸ hslot, hok.goesOn hgeo fun x => (hscroll x).goesOn⟩

/-- The calling scroll is at home while the banner is not on line 1 (R125). -/
theorem scrollHome_calling (s : State) : ScrollHome s .calling ↔ bannerLine s ≠ some 1 := by
  have hpos := lines_pos s
  show ownerOf s 1 = .table ↔ _
  rw [ownerOf_table_iff, ← bannerLine_iff]
  exact ⟨And.left, fun hne => ⟨hne, by omega⟩⟩

/-- The calling scroll stops when line 1 passes to the banner, and else is left as it was (R137). -/
theorem handedOn_calling {s t : State} (now : Option Nat) (hnow : bannerLine t = now)
    (hscroll : scrollOf t.paint .calling = if now = some 1 ∧ bannerLine s ≠ some 1 then .still else scrollOf s.paint .calling)
    (hstep : pendingStep t.paint .calling =
      if now = some 1 ∧ bannerLine s ≠ some 1 then false else pendingStep s.paint .calling) :
    ScrollHandedOn s t .calling := by
  unfold ScrollHandedOn
  rw [scrollHome_calling, scrollHome_calling, hnow, hscroll, hstep]
  by_cases hlost : now = some 1 ∧ bannerLine s ≠ some 1
  · exact .inl ⟨if_pos hlost, if_pos hlost⟩
  · exact .inr ⟨if_neg hlost, if_neg hlost, fun hne hone => hlost ⟨hone, hne⟩⟩

/-! ### The board state -/

theorem applyBoard_paintOK {new : BoardState} {s : State} (h : PaintOK s) : PaintOK (applyBoard new s) := by
  rw [applyBoard_eq]
  refine revokeJob_paintOK (h.handedOn rfl rfl rfl ⟨rfl, rfl⟩ (setInsertAll_below h.dirty fun _ => tableLines_lt) h.banner
    (fun x => ?_) id)
  cases x with
  | calling => exact handedOn_calling _ rfl rfl rfl
  | banner =>
    by_cases hsame : bannerLine (s.withBoard new) = bannerLine s
    · exact .inr ⟨if_pos hsame, if_pos hsame, hsame.trans_ne⟩
    · exact .inl ⟨if_neg hsame, if_neg hsame⟩

theorem selectBoard_paintOK {s : State} (h : PaintOK s) : PaintOK (selectBoard s) :=
  paintOK_ite h (applyBoard_paintOK h)

theorem lapseFeed_paintOK {s : State} (h : PaintOK s) : PaintOK (lapseFeed s) := by
  unfold lapseFeed
  split
  · exact h
  · exact selectBoard_paintOK (withTime_paintOK h _)

/-! ### The overhead record -/

theorem withFeed_paintOK {s : State} (h : PaintOK s) (v : FeedReceiver) : PaintOK (s.withFeed v) :=
  h.of_same (withFeed_sameBut v s)

theorem refreshFeed_paintOK {s : State} (h : PaintOK s) : PaintOK (refreshFeed s) := by
  unfold refreshFeed
  dsimp only
  split
  · exact withTime_paintOK h _
  · exact selectBoard_paintOK (withTime_paintOK h _)

theorem takeStationTime_paintOK {minute second : Nat} {s : State} (h : PaintOK s) :
    PaintOK (takeStationTime minute second s) := by
  have timed (v : Timekeeper) : PaintOK (s.withTime v) := withTime_paintOK h v
  refine paintOK_ite (paintOK_ite ?_ ?_) h
  · exact paintOK_ite (timed _) (paintOK_ite (timed _) (timeStages_paintOK (timed _)))
  · exact timeStages_paintOK (selectBoard_paintOK (timed _))

theorem debounceStation_paintOK {code : Byte} {s : State} (h : PaintOK s) : PaintOK (debounceStation code s) := by
  have held (v : FeedReceiver) : PaintOK (s.withFeed v) := withFeed_paintOK h v
  unfold debounceStation
  split
  · exact held _
  · exact paintOK_ite (paintOK_ite (held _) (selectBoard_paintOK (held _))) (held _)

theorem judgeRecord_paintOK {o1 o2 o3 o4 o5 : Octet} {s : State} (h : PaintOK s) : PaintOK (judgeRecord o1 o2 o3 o4 o5 s) :=
  paintOK_ite (debounceStation_paintOK (takeStationTime_paintOK (refreshFeed_paintOK (withFeed_paintOK h _)))) h

/-! ### SET BOARD -/

theorem applyFilter_paintOK {s : State} (h : PaintOK s) : PaintOK (applyFilter s) := by
  have htable : SameBut [.order] s (s.withTable { s.table with order := runningOrder s.settings.filter s.table.slots }) := by
    intro p hp
    cases p <;> simp_all [Part.same]
  exact markLines_paintOK (h.of_same htable) fun _ => tableLines_lt

theorem applySettings_paintOK {new : Settings} {s : State} (h : PaintOK s) : PaintOK (applySettings new s) := by
  have hset : PaintOK (s.withSettings new) := h.of_same (l := [.settings]) fun p hp => by cases p <;> simp_all [Part.same]
  have hfilter : PaintOK (withFilterApplied new s) := paintOK_ite (applyFilter_paintOK hset) hset
  have horigin : PaintOK (withOriginApplied s.settings (withFilterApplied new s)) :=
    paintOK_ite (withTime_paintOK (withTime_paintOK hfilter _) _) hfilter
  have hholdover : PaintOK (withHoldoverApplied s.settings (withOriginApplied s.settings (withFilterApplied new s))) :=
    paintOK_ite (paintOK_ite (lapseFeed_paintOK horigin) horigin) horigin
  have hsuspend := hholdover.of_same (withSuspendApplied_sameBut s.settings _)
  rw [applySettings_eq]
  exact paintOK_ite (markLines_paintOK hsuspend fun _ => departureLines_lt) hsuspend

theorem acceptSetBoard_paintOK {hd : Header} {f : BoardFields} {s : State} (h : PaintOK s) :
    PaintOK (acceptSetBoard hd f s) :=
  paintOK_ite (answer_paintOK h _ _ _ _)
    (paintOK_ite (answer_paintOK h _ _ _ _) (answer_paintOK (applySettings_paintOK h) _ _ _ _))

/-! ### The hold and the banner -/

/-- A change of the hold alone (R141 to R143). -/
theorem withHold_paintOK {s : State} (h : PaintOK s) (v : Hold) : PaintOK (s.withPaint { s.paint with hold := v }) :=
  { h with }

theorem acceptHold_paintOK {hd : Header} {s : State} (h : PaintOK s) : PaintOK (acceptHold hd s) :=
  answer_paintOK (withHold_paintOK h _) _ _ _ _

theorem acceptRelease_paintOK {hd : Header} {s : State} (h : PaintOK s) : PaintOK (acceptRelease hd s) := by
  unfold acceptRelease
  dsimp only
  split
  · exact answer_paintOK (withHold_paintOK h _) _ _ _ _
  · exact answer_paintOK (withHold_paintOK h _) _ _ _ _
  · exact answer_paintOK h _ _ _ _

theorem lapseHold_paintOK {s : State} (h : PaintOK s) : PaintOK (lapseHold s) := by
  unfold lapseHold
  split
  · exact withHold_paintOK h _
  · exact h
  · exact h

/-- The part with a new banner, before line 1 passes to it: the former banner's scroll stopped, the compose raised while it owns a
line (R138). -/
def withNewBanner (b : Banner) (s : State) : State :=
  s.withPaint { s.paint with
    banner := some b
    bannerScroll := .still
    bannerStep := false
    bannerCompose := (bannerLine (s.withPaint { s.paint with banner := some b })).isSome }

theorem withNewBanner_yields {b : Banner} {s : State} (h : PaintOK s) (htext : nameOK 160 b.text = true)
    (hwidth : b.width = textWidth .large b.text) : PaintOK (yieldCallingLine (bannerLine s) (withNewBanner b s)) := by
  rw [yieldCallingLine_eq]
  refine h.handedOn rfl rfl rfl ⟨rfl, rfl⟩ h.dirty ?_ (fun x => ?_) id
  · rintro _ ⟨⟩
    exact ⟨htext, hwidth⟩
  · cases x with
    | calling => exact handedOn_calling _ rfl rfl rfl
    | banner => exact .inl ⟨rfl, rfl⟩

theorem acceptSetBanner_paintOK {hd : Header} {f : BannerFields} {s : State} (h : PaintOK s) :
    PaintOK (acceptSetBanner hd f s) := by
  unfold acceptSetBanner
  split
  · next hf =>
    have htext : nameOK 160 f.text = true := (Bool.and_eq_true_iff.1 hf).1
    exact answer_paintOK (revokeJob_paintOK (withNewBanner_yields h htext rfl)) _ _ _ _
  · exact answer_paintOK h _ _ _ _

/-- The part without its banner, before its line is handed back (R139). -/
def withoutBanner (s : State) : State :=
  stopScroll .banner (s.withPaint { s.paint with banner := none, bannerCompose := false })

theorem withoutBanner_paintOK {s : State} (h : PaintOK s) : PaintOK (withoutBanner s) := by
  have hscroll (x : ScrollId) : ScrollHandedOn s (withoutBanner s) x := by
    cases x with
    | banner => exact .inl ⟨rfl, rfl⟩
    | calling => exact .inr ⟨rfl, rfl, fun _ => (scrollHome_calling _).2 nofun⟩
  exact h.handedOn rfl rfl rfl ⟨rfl, rfl⟩ h.dirty nofun hscroll nofun

theorem removeBanner_paintOK {s : State} (h : PaintOK s) : PaintOK (removeBanner s) := by
  have hclock := paintOK_ite (p := bannerLine s = some (s.lines - 1)) (s := raiseClock (withoutBanner s))
    { withoutBanner_paintOK h with } (withoutBanner_paintOK h)
  refine revokeJob_paintOK (paintOK_ite (markLines_paintOK hclock fun n hn => ?_) hclock)
  rw [List.mem_singleton.1 hn]
  exact Nat.lt_of_lt_of_le (by decide) (Nat.sub_le_sub_right (lines_pos _) 1)

theorem acceptClearBanner_paintOK {hd : Header} {s : State} (h : PaintOK s) : PaintOK (acceptClearBanner hd s) := by
  unfold acceptClearBanner
  split
  · exact answer_paintOK (removeBanner_paintOK h) _ _ _ _
  · exact answer_paintOK h _ _ _ _

theorem expireBanner_paintOK {s : State} (h : PaintOK s) : PaintOK (expireBanner s) := by
  unfold expireBanner
  split
  · exact paintOK_ite (removeBanner_paintOK h) h
  · exact h

end Sys2Proof.Machine

/-! O10. Scroll timers, placements, grants, the refresh and the resets keep the Paint Engine in order, so that every step does. -/

namespace Sys2Proof.Machine

/-! ### Scrolls -/

theorem scrollOf_withScroll (which x : ScrollId) (sc : Scroll) (s : State) :
    scrollOf (withScroll which sc s).paint x = if x = which then sc else scrollOf s.paint x := by
  cases which <;> cases x <;> rfl

theorem pendingStep_withScroll (which x : ScrollId) (sc : Scroll) (s : State) :
    pendingStep (withScroll which sc s).paint x = pendingStep s.paint x := by
  cases which <;> cases x <;> rfl

/-- A scroll put in another state while its slot has its line; a step under way must go on with it (R134 to R136). -/
theorem withScroll_paintOK {which : ScrollId} {sc : Scroll} {s : State} (h : PaintOK s)
    (hrange : ScrollOK s (stripMost which) sc) (hgo : s.paint.job ≠ none → (scrollOf s.paint which).GoesOn sc)
    (hstep : pendingStep s.paint which = true → StepAllowed which sc) (hhome : ScrollHome s which) :
    PaintOK (withScroll which sc s) := by
  have hgeo : (withScroll which sc s).geometry = s.geometry := by cases which <;> rfl
  have hline (x : ScrollId) (hx : ScrollHome s x) : ScrollHome (withScroll which sc s) x := by
    cases which <;> exact hx
  have hscroll (x : ScrollId) : ScrollInOrder (withScroll which sc s) x := by
    by_cases hx : x = which
    · subst hx
      unfold ScrollInOrder
      rw [scrollOf_withScroll, if_pos rfl, pendingStep_withScroll]
      exact ⟨hrange.congr hgeo, hstep, fun _ => hline x hhome⟩
    · exact (h.scroll x).kept hgeo (by rw [scrollOf_withScroll, if_neg hx]) (pendingStep_withScroll ..) (hline x)
  have hjob (j : Job) (hj : s.paint.job = some j) : s.paint.lastGranted = j.slot ∧ JobOK (withScroll which sc s) j := by
    obtain ⟨hslot, hok⟩ := h.job j hj
    refine ⟨hslot, hok.goesOn hgeo fun x => ?_⟩
    rw [scrollOf_withScroll]
    split
    · next hx => exact hx ▸ hgo (by simp [hj])
    · exact Scroll.goesOn_refl _
  cases which <;> exact { h with scroll := hscroll, job := hjob }

theorem pendingStep_clearStep (which x : ScrollId) (s : State) :
    pendingStep (clearStep which s).paint x = if x = which then false else pendingStep s.paint x := by
  cases which <;> cases x <;> rfl

theorem clearStep_home {which x : ScrollId} {s : State} (h : ScrollHome s x) : ScrollHome (clearStep which s) x := by
  cases which <;> cases x <;> exact h

theorem clearStep_paintOK {which : ScrollId} {s : State} (h : PaintOK s) : PaintOK (clearStep which s) := by
  have hscroll (x : ScrollId) : ScrollInOrder (clearStep which s) x := by
    obtain ⟨hrange, hstep, hhome⟩ := h.scroll x
    have hallowed : pendingStep (clearStep which s).paint x = true → StepAllowed x (scrollOf s.paint x) := by
      rw [pendingStep_clearStep]
      split
      · exact nofun
      · exact hstep
    cases which <;> exact ⟨hrange, hallowed, hhome⟩
  cases which <;> exact { h with scroll := hscroll }

theorem scrollOf_stopScroll (which x : ScrollId) (s : State) :
    scrollOf (stopScroll which s).paint x = if x = which then .still else scrollOf s.paint x := by
  cases which <;> cases x <;> rfl

theorem pendingStep_stopScroll (which x : ScrollId) (s : State) :
    pendingStep (stopScroll which s).paint x = if x = which then false else pendingStep s.paint x := by
  cases which <;> cases x <;> rfl

theorem stopScroll_paintOK {which : ScrollId} {s : State} (h : PaintOK s) : PaintOK (stopScroll which s) := by
  have hscroll (x : ScrollId) : ScrollHandedOn s (stopScroll which s) x := by
    unfold ScrollHandedOn
    rw [scrollOf_stopScroll, pendingStep_stopScroll]
    by_cases hx : x = which
    · exact .inl ⟨if_pos hx, if_pos hx⟩
    · exact .inr ⟨if_neg hx, if_neg hx, fun hhome => by cases which <;> exact hhome⟩
  cases which <;> exact h.handedOn rfl rfl rfl ⟨rfl, rfl⟩ h.dirty h.banner hscroll fun hc =>
    Option.isSome_iff_ne_none.2 (h.compose hc)

theorem stepAllowed_moving (which : ScrollId) (strip : List Column) (offset wait : Int) :
    StepAllowed which (.moving strip offset wait) := by
  cases which
  exacts [rfl, nofun]

/-- A MOVING scroll at offset 0 is in range (R134). -/
theorem movingStart_ok {s : State} {most : Nat} {strip : List Column} (h : StripOK most (some strip)) (wait : Int) :
    ScrollOK s most (.moving strip 0 wait) := by
  have hpos := (h strip rfl).1
  exact ⟨h, by omega, by omega⟩

theorem beginPause_ok {s u : State} {most : Nat} {strip : List Column} (h : StripOK most (some strip)) :
    ScrollOK s most (beginPause u strip) := by
  unfold beginPause
  split
  · exact movingStart_ok h _
  · exact h

theorem beginPause_ne_still (s : State) (strip : List Column) : beginPause s strip ≠ .still := by
  unfold beginPause
  split <;> nofun

theorem endPause_paintOK {which : ScrollId} {s : State} (h : PaintOK s) : PaintOK (endPause which s) := by
  obtain ⟨hrange, hstep, hhome⟩ := h.scroll which
  unfold endPause
  split
  · next strip wait hpaused =>
    rw [hpaused] at hrange hhome
    exact withScroll_paintOK h (movingStart_ok hrange _) (fun _ => hpaused ▸ trivial) (fun _ => stepAllowed_moving ..)
      (hhome nofun)
  · exact h
  · exact h

/-- Raise the pending step of a scroll (R135). -/
def raiseStep (which : ScrollId) (s : State) : State :=
  match which with
  | .calling => s.withPaint { s.paint with callingStep := true }
  | .banner => s.withPaint { s.paint with bannerStep := true }

theorem scrollOf_raiseStep (which x : ScrollId) (s : State) : scrollOf (raiseStep which s).paint x = scrollOf s.paint x := by
  cases which <;> cases x <;> rfl

theorem pendingStep_raiseStep {which x : ScrollId} (hx : x ≠ which) (s : State) :
    pendingStep (raiseStep which s).paint x = pendingStep s.paint x := by
  cases which <;> cases x <;> simp [pendingStep, raiseStep] at hx ⊢

theorem raiseStep_paintOK {which : ScrollId} {s : State} (h : PaintOK s) (hstep : StepAllowed which (scrollOf s.paint which)) :
    PaintOK (raiseStep which s) := by
  have hscroll (x : ScrollId) : ScrollInOrder (raiseStep which s) x := by
    obtain ⟨hrange, hold, hhome⟩ := h.scroll x
    have hallowed : pendingStep (raiseStep which s).paint x = true → StepAllowed x (scrollOf s.paint x) := by
      by_cases hx : x = which
      · exact fun _ => hx ▸ hstep
      · rwa [pendingStep_raiseStep hx]
    unfold ScrollInOrder
    rw [scrollOf_raiseStep]
    cases which <;> exact ⟨hrange, hallowed, hhome⟩
  cases which <;> exact { h with scroll := hscroll }

theorem stepDue_paintOK {which : ScrollId} {s : State} (h : PaintOK s) : PaintOK (stepDue which s) := by
  obtain ⟨hrange, -, hhome⟩ := h.scroll which
  unfold stepDue
  split
  · next strip offset wait hmoving =>
    rw [hmoving] at hrange hhome
    have hmoved := withScroll_paintOK h (which := which) (sc := .moving strip offset (min wait 0 + stepInterval s)) hrange
      (fun _ => hmoving ▸ rfl) (fun _ => stepAllowed_moving ..) (hhome nofun)
    have hraised := raiseStep_paintOK hmoved (by rw [scrollOf_withScroll, if_pos rfl]; exact stepAllowed_moving ..)
    cases which <;> exact hraised
  · exact h
  · exact h

/-! ### Placements -/

theorem freeEngine_paintOK {s : State} (h : PaintOK s) : PaintOK (freeEngine s) := { h with job := nofun }

theorem placeImage_paintOK {line : Nat} {image : List Column} {s : State} (h : PaintOK s) (himage : ImageOK s image) :
    PaintOK (placeImage line image s) := by
  obtain ⟨hcount, himages⟩ := h.pending
  refine { h with pending := ⟨List.length_set.trans hcount, fun p hp i hi => ?_⟩ }
  rcases List.mem_or_eq_of_mem_set hp with hold | rfl
  · exact himages p hold i hi
  · cases hi
    exact himage

theorem placeComposed_home {line : Nat} {c : Composed} {x : ScrollId} {s : State} (h : ScrollHome s x) :
    ScrollHome (placeComposed line c s) x := by
  cases x <;> exact h

theorem placeComposed_paintOK {line : Nat} {c : Composed} {s : State} (h : PaintOK s) (himage : ImageOK s c.image) :
    PaintOK (placeComposed line c s) :=
  { placeImage_paintOK (line := line) h himage with layouts := List.length_set.trans h.layouts }

/-- The scroll of a line after a compose: a new strip pauses at its start, a static line stops it (R134, R137). -/
theorem restartScroll_paintOK {which : ScrollId} {strip : Option (List Column)} {s : State} (h : PaintOK s)
    (hjob : s.paint.job = none) (hstrip : StripOK (stripMost which) strip)
    (hstep : which = .calling → s.paint.callingStep = false) (hhome : ScrollHome s which) :
    PaintOK (restartScroll which strip s) := by
  unfold restartScroll
  split
  · next columns =>
    refine withScroll_paintOK h (beginPause_ok hstrip) (fun hne => absurd hjob hne) (fun hs => ?_) hhome
    cases which with
    | calling => exact absurd (hs.symm.trans (hstep rfl)) (by decide)
    | banner => exact beginPause_ne_still s columns
  · exact stopScroll_paintOK h

theorem tableJobDone_paintOK {s : State} (h : PaintOK s) : PaintOK (tableJobDone s) := by
  have hfree := freeEngine_paintOK h
  unfold tableJobDone
  split
  · next line out hj =>
    obtain ⟨-, -, hout⟩ := h.job _ hj
    dsimp only
    split
    · next c =>
      obtain ⟨himage, hstrip⟩ := hout c rfl
      split
      · next howner =>
        have hplaced := placeComposed_paintOK (line := line) hfree himage
        split
        · next hone =>
          subst hone
          exact restartScroll_paintOK (clearStep_paintOK hplaced) rfl hstrip (fun _ => rfl)
            (clearStep_home (placeComposed_home howner))
        · exact hplaced
      · exact hfree
    · exact hfree
  · exact h

theorem clockJobDone_paintOK {s : State} (h : PaintOK s) : PaintOK (clockJobDone s) := by
  have hfree := freeEngine_paintOK h
  unfold clockJobDone
  split
  · next out hj =>
    obtain ⟨-, hout⟩ := h.job _ hj
    dsimp only
    split
    · next c => exact paintOK_ite (placeComposed_paintOK hfree (hout c rfl)) hfree
    · exact hfree
  · exact h

theorem bannerComposeDone_paintOK {s : State} (h : PaintOK s) : PaintOK (bannerComposeDone s) := by
  have hfree := freeEngine_paintOK h
  unfold bannerComposeDone
  split
  · next out hj =>
    obtain ⟨-, hout⟩ := h.job _ hj
    dsimp only
    split
    · next line c =>
      obtain ⟨-, himage, hstrip⟩ := hout _ rfl
      split
      · next howner =>
        have hline : bannerLine s = some line := (bannerLine_iff s line).2 ((ownerOf_iff s line).1.1 howner)
        exact restartScroll_paintOK (placeComposed_paintOK hfree himage) rfl hstrip nofun
          fun hnone => absurd (hline.symm.trans hnone) nofun
      · exact hfree
    · exact hfree
  · exact h

/-- A step lands on a scroll that is MOVING or has stopped (R136, R137). -/
theorem landStep_paintOK {which : ScrollId} {r : StepResult} {s : State} (h : PaintOK s) (hjob : s.paint.job = none)
    (hr : StepOK s (scrollOf s.paint which) r) : PaintOK (landStep which r s) := by
  obtain ⟨hrange, hstep, hhome⟩ := h.scroll which
  obtain ⟨-, hoffset⟩ := hr
  unfold landStep
  split
  · next strip offset wait hmoving =>
    rw [hmoving] at hrange hhome hoffset
    obtain ⟨hstrip, -⟩ := hrange
    split
    · have hclear : pendingStep (clearStep which s).paint which = false := by rw [pendingStep_clearStep, if_pos rfl]
      refine withScroll_paintOK (clearStep_paintOK h) (beginPause_ok hstrip) (fun hne => ?_) (fun hs => ?_) ?_
      · exact absurd (by cases which <;> exact hjob) hne
      · exact absurd (hclear.symm.trans hs) (by decide)
      · exact clearStep_home (hhome nofun)
    · exact withScroll_paintOK h ⟨hstrip, hoffset⟩ (fun hne => absurd hjob hne) (fun _ => stepAllowed_moving ..)
        (hhome nofun)
  · exact h
  · exact h

theorem callingStepDone_paintOK {s : State} (h : PaintOK s) : PaintOK (callingStepDone s) := by
  have hfree := freeEngine_paintOK h
  unfold callingStepDone
  split
  · next out hj =>
    obtain ⟨-, hout⟩ := h.job _ hj
    dsimp only
    split
    · next r =>
      have hr : StepOK s s.paint.callingScroll r := hout r rfl
      refine paintOK_ite (placeImage_paintOK (landStep_paintOK hfree rfl hr) ?_) hfree
      exact hr.1.congr (landStep_sameBut .calling r (freeEngine s) .geometry (by decide))
    · exact hfree
  · exact h

theorem bannerStepDone_paintOK {s : State} (h : PaintOK s) : PaintOK (bannerStepDone s) := by
  have hfree := freeEngine_paintOK h
  unfold bannerStepDone
  split
  · next out hj =>
    obtain ⟨-, hout⟩ := h.job _ hj
    dsimp only
    split
    · next line r =>
      have hr : StepOK s s.paint.bannerScroll r := (hout _ rfl).2
      refine paintOK_ite (placeImage_paintOK (landStep_paintOK hfree rfl hr) ?_) hfree
      exact hr.1.congr (landStep_sameBut .banner r (freeEngine s) .geometry (by decide))
    · exact hfree
  · exact h

/-! ### The arbiter -/

/-- A step of a scroll in range is in range, at the next offset or back at −W (R133, R136). -/
theorem scrollStep_ok {s : State} {most : Nat} {sc : Scroll} (h : ScrollOK s most sc) {r : StepResult}
    (hr : scrollStep s sc = some r) : StepOK s sc r := by
  cases sc with
  | still | paused => cases hr
  | moving strip offset wait =>
    obtain ⟨hstrip, hlow, hhigh⟩ := h
    have hpos := (hstrip strip rfl).1
    cases hr
    refine ⟨(stripWindow_windowOf ..).imageOK, ?_⟩
    unfold State.columns
    dsimp only
    split <;> omega

theorem bannerJob_ok {s : State} (h : PaintOK s) {line : Nat} {c : Composed} (hj : bannerJob s = some (line, c)) :
    line < s.lines ∧ ComposedOK s 1439 c := by
  unfold bannerJob at hj
  split at hj
  · next b line' hb hline =>
    cases hj
    exact ⟨bannerLine_lt hline, composeBanner_ok s (h.banner b hb).1⟩
  · cases hj

/-- The grant of a slot: one request served, and its job composed of what it reads (R128, R131, R132, R136, R140). -/
theorem grant_paintOK {slot : Slot} {s : State} (h : PaintOK s) : PaintOK (grant slot s) := by
  cases slot with
  | table =>
    unfold grant
    dsimp only
    split
    · next line hline =>
      obtain ⟨hsorted, hbelow⟩ := h.dirty
      refine { h with
        dirty := ⟨hsorted.filter _, fun n hn => hbelow n (List.mem_of_mem_filter hn)⟩
        job := ?_ }
      rintro _ ⟨⟩
      refine ⟨rfl, hbelow _ (firstEligible_some hline).1, ?_⟩
      rintro _ ⟨⟩
      exact composeTable_ok s line
    · exact h
  | scroll =>
    refine { clearStep_paintOK (which := .calling) h with job := ?_ }
    rintro _ ⟨⟩
    exact ⟨rfl, fun r hr => scrollStep_ok (h.scroll .calling).1 hr⟩
  | clock =>
    refine { h with job := ?_ }
    rintro _ ⟨⟩
    exact ⟨rfl, fun c hc => clockJob_imageOK hc⟩
  | banner =>
    have hserved := clearStep_paintOK (which := .banner) h
    unfold grant
    dsimp only
    split
    · refine { hserved with job := ?_, compose := nofun }
      rintro _ ⟨⟩
      exact ⟨rfl, fun p hp => bannerJob_ok h hp⟩
    · refine { hserved with job := ?_ }
      rintro _ ⟨⟩
      refine ⟨rfl, fun p hp => ?_⟩
      split at hp
      · next line r hline hr =>
        cases hp
        exact ⟨bannerLine_lt hline, scrollStep_ok (h.scroll .banner).1 hr⟩
      · cases hp

theorem decideGrant_paintOK {s : State} (h : PaintOK s) : PaintOK (decideGrant s) := by
  unfold decideGrant
  split
  · exact h
  · split
    · exact grant_paintOK h
    · exact h

theorem judgeRequest_sameBut (s : State) :
    SameBut [.suspendRequest, .bankReport, .dirOp, .eraseMarks] s (judgeRequest s) := by
  have hleaves := judgeRequest_leaves s
  unfold ArbiterLeaves at hleaves
  intro p hp
  cases p <;> simp_all [Part.same]

theorem settle_paintOK {s : State} (h : PaintOK s) : PaintOK (settle s) :=
  (decideGrant_paintOK (h.of_same (judgeRequest_sameBut s))).of_same (judgeRequest_sameBut _)

/-! ### The Frame Store -/

/-- A shown image after a refresh is one shown before or one that was pending (R150). -/
theorem mem_promoted {shown : List (List Column)} {pending : List (Option (List Column))} {i : List Column}
    (h : i ∈ List.zipWith (fun (image : List Column) p => p.getD image) shown pending) :
    i ∈ shown ∨ some i ∈ pending := by
  obtain ⟨k, hk, rfl⟩ := List.mem_iff_getElem.1 h
  obtain ⟨hks, hkp⟩ : k < shown.length ∧ k < pending.length := by simpa using hk
  rw [List.getElem_zipWith]
  cases hp : pending[k] with
  | none => exact .inl (List.getElem_mem hks)
  | some image => exact .inr (hp ▸ List.getElem_mem hkp)

theorem refreshFrame_paintOK {s : State} (h : PaintOK s) : PaintOK (refreshFrame s) := by
  obtain ⟨hshown, hsimages⟩ := h.shown
  obtain ⟨hpending, hpimages⟩ := h.pending
  refine { h with
    shown := ⟨?_, fun i hi => ?_⟩
    pending := ⟨(List.length_map _).trans hpending, fun p hp i hi => ?_⟩ }
  · refine List.length_zipWith.trans ?_
    rw [hshown, hpending]
    exact Nat.min_self _
  · exact (mem_promoted hi).elim (hsimages i) fun hp => hpimages _ hp i rfl
  · obtain ⟨-, -, rfl⟩ := List.mem_map.1 hp
    cases hi

theorem latchShift_paintOK {s : State} (h : PaintOK s) : PaintOK (latchShift s) := by
  unfold latchShift
  split
  · exact { h with }
  · exact h

/-! ### The resets -/

/-- A Paint Engine at its reset value, with dark images, is in order (R146, R148). -/
theorem paintOK_reset {s : State} (hgeo : s.geometry ≤ 3) (hpaint : s.paint = Paint.reset s.lines)
    (hshown : s.frame.shown = List.replicate s.lines (darkImage s.geometry))
    (hpending : s.frame.pending = List.replicate s.lines none) : PaintOK s := by
  refine ⟨hgeo, hpaint ▸ setBelow_nil _, ?_, hshown ▸ ⟨List.length_replicate, fun i hi => ?_⟩,
    hpending ▸ ⟨List.length_replicate, fun p hp i hi => ?_⟩, ?_, ?_, fun x => ?_, ?_⟩
  · rw [hpaint]
    exact List.length_replicate
  · rw [List.eq_of_mem_replicate hi]
    exact darkImage_ok s
  · rw [List.eq_of_mem_replicate hp] at hi
    cases hi
  · rw [hpaint]
    exact nofun
  · rw [hpaint]
    exact nofun
  · cases x <;> exact .stopped (by rw [hpaint]; rfl) (by rw [hpaint]; rfl)
  · rw [hpaint]
    exact nofun

theorem acceptRestart_paintOK {s : State} (h : PaintOK s) : PaintOK (acceptRestart s) := by
  rw [acceptRestart_eq]
  exact applyBoard_paintOK (paintOK_reset h.geometry rfl rfl rfl)

theorem hardReset_paintOK {s : State} (h : PaintOK s) : PaintOK (hardReset s) := paintOK_reset h.geometry rfl rfl rfl

theorem releaseReset_paintOK {s : State} (geo1 geo0 : Bool) (hp : s.phase = .inReset) :
    PaintOK (releaseReset geo1 geo0 s) := by
  have hcode : geometryCode geo1 geo0 ≤ 3 := by cases geo1 <;> cases geo0 <;> decide
  rw [releaseReset_eq geo1 geo0 hp]
  exact settle_paintOK (applyBoard_paintOK (paintOK_reset hcode rfl rfl rfl))

/-! ### Every operation -/

theorem acceptMessage_paintOK {s : State} (hd : Header) (m : Message) (h : PaintOK s) : PaintOK (acceptMessage hd m s) := by
  cases m with
  | post f => exact acceptPost_paintOK h
  | amend f => exact acceptAmend_paintOK h
  | retire key => exact acceptRetire_paintOK h
  | clearBoard => exact acceptClear_paintOK h
  | holdBoard => exact acceptHold_paintOK h
  | releaseBoard => exact acceptRelease_paintOK h
  | setBanner f => exact acceptSetBanner_paintOK h
  | clearBanner => exact acceptClearBanner_paintOK h
  | writePlace f => exact h.of_same (acceptWrite_sameBut hd f s)
  | eraseSector sector => exact h.of_same (acceptErase_sameBut hd sector s)
  | suspendErase => exact h.of_same (acceptSuspend_sameBut hd s)
  | resumeErase => exact h.of_same (acceptResume_sameBut hd s)
  | lockSectors sectors => exact h.of_same (acceptLock_sameBut hd sectors s)
  | freeSectors sectors => exact h.of_same (acceptFree_sameBut hd sectors s)
  | readService key => exact h.of_same (sameBut_ite (enqueueRead_sameBut _ _ s) (answerRead_sameBut _ _ _ _ s))
  | readPlace place => exact h.of_same (sameBut_ite (enqueueRead_sameBut _ _ s) (answerRead_sameBut _ _ _ _ s))
  | readBoard => exact h.of_same (enqueueRead_sameBut _ _ s)
  | setBoard f => exact acceptSetBoard_paintOK h
  | restart => exact acceptRestart_paintOK h

theorem Operation.paintOK {s t : State} (ho : Operation s t) (h : PaintOK s) : PaintOK t := by
  cases ho with
  | accept hd m => exact acceptMessage_paintOK hd m h
  | answer kind hd o d => exact answer_paintOK h kind hd o d
  | answerRead kind hd o d => exact h.of_same (answerRead_sameBut kind hd o d s)
  | settle => exact settle_paintOK h
  | unpack v => exact h.of_same (l := [.unpacker]) fun p hp => by cases p <;> simp_all [Part.same]
  | receive v _ _ => exact withFeed_paintOK h v
  | record o1 o2 o3 o4 o5 => exact judgeRecord_paintOK h
  | minute => exact advanceMinute_paintOK h
  | lapse => exact lapseFeed_paintOK h
  | expiry => exact windowExpiry_paintOK h
  | written v => exact h.of_same (completeWrite_sameBut v s)
  | gathered => exact h.of_same (gatherExpiry_sameBut s)
  | erased => exact h.of_same (sectorDone_sameBut s)
  | suspended => exact h.of_same (suspensionDone_sameBut s)
  | locked => exact h.of_same (lockDone_sameBut s)
  | scanned => exact h.of_same (scanDone_sameBut s).1
  | holdLapse => exact lapseHold_paintOK h
  | bannerExpiry => exact expireBanner_paintOK h
  | tableJob => exact tableJobDone_paintOK h
  | clockJob => exact clockJobDone_paintOK h
  | callingStep => exact callingStepDone_paintOK h
  | bannerCompose => exact bannerComposeDone_paintOK h
  | bannerStep => exact bannerStepDone_paintOK h
  | pause which => exact endPause_paintOK h
  | stepDue which => exact stepDue_paintOK h
  | refresh => exact refreshFrame_paintOK h
  | latch => exact latchShift_paintOK h
  | returnSlot =>
    rw [returnSlot_eq]
    exact h.of_same (withResults_sameBut _ s)
  | key => exact h.of_same (keyDebounced_sameBut s)

/-! ### The millisecond -/

theorem advanceScroll_goesOn (sc : Scroll) : sc.GoesOn (advanceScroll sc) := by
  cases sc <;> trivial

theorem advanceScroll_still {sc : Scroll} : advanceScroll sc = .still ↔ sc = .still := by
  cases sc <;> simp [advanceScroll]

theorem ScrollOK.advance {s t : State} {most : Nat} {sc : Scroll} (h : ScrollOK s most sc) (hgeo : t.geometry = s.geometry) :
    ScrollOK t most (advanceScroll sc) := by
  cases sc with
  | still | paused => exact h
  | moving strip offset wait => exact ScrollOK.congr (sc := .moving strip offset (wait - tickNs)) hgeo h

theorem StepAllowed.advance {x : ScrollId} {sc : Scroll} (h : StepAllowed x sc) : StepAllowed x (advanceScroll sc) := by
  cases x with
  | calling => cases sc <;> exact h
  | banner => exact fun hs => h (advanceScroll_still.1 hs)

/-- The banner's timer moves no line (R138). -/
theorem advanceTimers_bannerLine (s : State) : bannerLine (advanceTimers s) = bannerLine s := by
  have hbanner : (advanceTimers s).paint.banner = s.paint.banner.map advanceBanner := rfl
  have hboard : (advanceTimers s).board = s.board := rfl
  have hlines : (advanceTimers s).lines = s.lines := rfl
  unfold bannerLine
  rw [hbanner, hboard, hlines]
  cases s.paint.banner with
  | none => rfl
  | some b => cases s.board <;> rfl

theorem advanceTimers_paintOK {s : State} (h : PaintOK s) : PaintOK (advanceTimers s) := by
  have hscroll (x : ScrollId) : scrollOf (advanceTimers s).paint x = advanceScroll (scrollOf s.paint x) := by
    cases x <;> rfl
  have hstep (x : ScrollId) : pendingStep (advanceTimers s).paint x = pendingStep s.paint x := by
    cases x <;> rfl
  have hline := advanceTimers_bannerLine s
  have hhome (x : ScrollId) (hx : ScrollHome s x) : ScrollHome (advanceTimers s) x := by
    cases x with
    | calling =>
      rw [scrollHome_calling] at hx ⊢
      exact hline.trans_ne hx
    | banner => exact hline.trans_ne hx
  refine { h with
    job := fun j hj => ?_
    banner := fun b hb => ?_
    scroll := fun x => ?_
    compose := fun hc => hline.trans_ne (h.compose hc) }
  · obtain ⟨hslot, hok⟩ := h.job j hj
    exact ⟨hslot, hok.goesOn rfl fun x => hscroll x ▸ advanceScroll_goesOn _⟩
  · obtain ⟨b', hb', rfl⟩ := Option.map_eq_some_iff.1 hb
    exact h.banner b' hb'
  · obtain ⟨hrange, hallowed, hx⟩ := h.scroll x
    unfold ScrollInOrder
    rw [hscroll, hstep]
    exact ⟨hrange.advance rfl, fun hs => (hallowed hs).advance, fun hne => hhome x (hx (mt advanceScroll_still.2 hne))⟩

theorem runClock_paintOK {s : State} (h : PaintOK s) : PaintOK (runClock s) :=
  paintOK_ite (paintOK_ite (withTime_paintOK h _)
    (paintOK_ite (withTime_paintOK h _) (settle_paintOK (advanceMinute_paintOK h)))) h

theorem tick_paintOK {s : State} (h : PaintOK s) : PaintOK (tick s) :=
  (tick_operations s).keep (fun _ _ => Operation.paintOK)
    (paintOK_ite (settle_paintOK (lapseFeed_paintOK (runClock_paintOK (advanceTimers_paintOK h))))
      (runClock_paintOK (advanceTimers_paintOK h)))

theorem Executed.paintOK {s t : State} (he : Executed s t) (h : PaintOK s) : PaintOK t := by
  cases he with
  | idle => exact h
  | chain _ hops => exact hops.keep (fun _ _ => Operation.paintOK) h
  | keyInput closed => exact h.of_same (withKey_sameBut _ s)
  | reset => exact hardReset_paintOK h
  | release geo1 geo0 hp => exact releaseReset_paintOK geo1 geo0 hp

/-- Settles O10: every operation, the timers and the resets keep the Paint Engine in order, whatever the settings. -/
theorem paintInvariantKept : Obligations.PaintInvariantKept := by
  intro s t _ hinv hstep
  have h := (paintInv_iff s).1 hinv
  refine (paintInv_iff t).2 ?_
  rcases step_executed hstep with ⟨rest, he⟩ | ⟨-, rfl⟩ | ⟨-, rfl⟩
  · exact he.paintOK { h with }
  · exact h
  · exact tick_paintOK h

end Sys2Proof.Machine

/-! O49. A TABLE job that ends: placed on a line that TABLE still owns, and the arbiter's decision with the engine free. -/

namespace Sys2Proof.Machine

/-! ### The job's end, case by case -/

theorem freeEngine_touches (s : State) : SameBut [.arbiter] s (freeEngine s) := by
  intro p hp
  cases p <;> simp_all [Part.same, freeEngine]

/-- The part with the job's compose placed and the engine free. -/
def tablePlaced (line : Nat) (c : Composed) (s : State) : State := placeComposed line c (freeEngine s)

/-- The part with a compose placed on line 1: the pending calling step cleared, and the scroll begun anew or stopped (R131,
R134, R137). -/
def callingPlaced (c : Composed) (s : State) : State :=
  restartScroll .calling c.strip (clearStep .calling (tablePlaced 1 c s))

section
variable {s : State} {line : Nat} {out : Option Composed} {c : Composed}

theorem tableJobDone_unplaced (hjob : s.paint.job = some (.table line out)) (h : out = none ∨ ownerOf s line ≠ .table) :
    tableJobDone s = freeEngine s := by
  unfold tableJobDone
  rw [hjob]
  rcases h with rfl | howner
  · rfl
  · cases out with
    | none => rfl
    | some c => exact if_neg howner

theorem tableJobDone_placed (hjob : s.paint.job = some (.table line (some c))) (howner : ownerOf s line = .table)
    (hline : line ≠ 1) : tableJobDone s = tablePlaced line c s := by
  unfold tableJobDone
  rw [hjob]
  exact (if_pos howner).trans (if_neg hline)

theorem tableJobDone_calling (hjob : s.paint.job = some (.table 1 (some c))) (howner : ownerOf s 1 = .table) :
    tableJobDone s = callingPlaced c s := by
  unfold tableJobDone
  rw [hjob]
  exact (if_pos howner).trans (if_pos rfl)

end

/-! ### What a placement changes -/

/-- A compose placed on line 1, whole: its image and layout record, and the scroll it begins or stops (R134, R137). -/
theorem callingPlaced_eq (c : Composed) (s : State) : callingPlaced c s = (placeImage 1 c.image s).withPaint
    { s.paint with
      job := none
      layouts := s.paint.layouts.set 1 c.layout
      callingStep := false
      callingScroll := (c.strip.map (pausedAt s)).getD .still } := by
  have hplaced : clearStep .calling (tablePlaced 1 c s) = (placeImage 1 c.image s).withPaint { s.paint with
      job := none
      layouts := s.paint.layouts.set 1 c.layout
      callingStep := false } := rfl
  unfold callingPlaced restartScroll
  rw [hplaced]
  cases c.strip <;> rfl

/-- What a placement touches, the engine free with it. -/
theorem tablePlaced_touches (line : Nat) (c : Composed) (s : State) :
    SameBut [.frame, .layouts, .arbiter] s (tablePlaced line c s) := by
  intro p hp
  cases p <;> simp_all [Part.same, tablePlaced, placeComposed, placeImage, freeEngine]

theorem callingPlaced_touches (c : Composed) (s : State) :
    SameBut [.frame, .layouts, .callingScroll, .arbiter, .requests] s (callingPlaced c s) := by
  rw [callingPlaced_eq]
  intro p hp
  cases p <;> simp_all [Part.same, placeImage]

/-! ### The arbiter's decision -/

theorem freeEngine_freed (s : State) : EngineFreed s.paint.callingStep s.paint.bannerStep s (settle (freeEngine s)) :=
  ⟨_, rfl, rfl, rfl, rfl, rfl, rfl, rfl, rfl, rfl, rfl⟩

theorem tablePlaced_freed (line : Nat) (c : Composed) (s : State) :
    EngineFreed s.paint.callingStep s.paint.bannerStep s (settle (tablePlaced line c s)) :=
  ⟨_, rfl, rfl, rfl, rfl, rfl, rfl, rfl, rfl, rfl, rfl⟩

theorem callingPlaced_freed (c : Composed) (s : State) :
    EngineFreed false s.paint.bannerStep s (settle (callingPlaced c s)) := by
  rw [callingPlaced_eq]
  exact ⟨_, rfl, rfl, rfl, rfl, rfl, rfl, rfl, rfl, rfl, rfl⟩

/-- A calling step that a placement cleared does not rise in the decision (R131). -/
theorem callingPlaced_noStep (c : Composed) (s : State) : (settle (callingPlaced c s)).paint.callingStep = false := by
  rw [callingPlaced_eq]
  exact Bool.eq_false_iff.2 fun hstep => Bool.false_ne_true ((settle_noneRaised _).1 hstep)

theorem callingPlaced_scroll (c : Composed) (s : State) :
    (settle (callingPlaced c s)).paint.callingScroll = (c.strip.map (pausedAt s)).getD .still := by
  rw [settle_paint_callingScroll, callingPlaced_eq]
  rfl

/-- A compose is in the line's pending image and its layout record after the decision (R122, R130). -/
theorem tablePlaced_placed (line : Nat) (c : Composed) (s : State) :
    (settle (tablePlaced line c s)).frame = { s.frame with pending := s.frame.pending.set line (some c.image) } ∧
      (settle (tablePlaced line c s)).paint.layouts = s.paint.layouts.set line c.layout := by
  rw [settle_frame, settle_paint_layouts]
  exact ⟨rfl, rfl⟩

theorem callingPlaced_placed (c : Composed) (s : State) :
    (settle (callingPlaced c s)).frame = { s.frame with pending := s.frame.pending.set 1 (some c.image) } ∧
      (settle (callingPlaced c s)).paint.layouts = s.paint.layouts.set 1 c.layout := by
  rw [settle_frame, settle_paint_layouts, callingPlaced_eq]
  exact ⟨rfl, rfl⟩

/-- Settles O49, by whose the line is and by whether it is line 1. -/
theorem tableJobPlaces : Obligations.TableJobPlaces := by
  intro s line out hrun hjob
  refine ⟨settle (tableJobDone s), congrArg Host.Outcome.next (event_of_running hrun _), fun hnone => ?_, ?_⟩
  · rw [tableJobDone_unplaced hjob hnone]
    exact ⟨framedBy_raised (freeEngine_touches s) (by decide) (by decide), freeEngine_freed s⟩
  rintro c rfl howner
  by_cases hline : line = 1
  · subst hline
    rw [tableJobDone_calling hjob howner]
    obtain ⟨hframe, hlayouts⟩ := callingPlaced_placed c s
    have hscroll := callingPlaced_scroll c s
    refine ⟨hframe, hlayouts, fun hne => absurd rfl hne,
      fun _ => ⟨callingPlaced_noStep c s, callingPlaced_freed c s, ?_, ?_⟩,
      framedBy_raised (callingPlaced_touches c s) (by decide) (by decide)⟩
    · exact fun hstill => by rw [hscroll, hstill]; rfl
    · exact fun strip hstrip => by rw [hscroll, hstrip]; rfl
  · rw [tableJobDone_placed hjob howner hline]
    obtain ⟨hframe, hlayouts⟩ := tablePlaced_placed line c s
    refine ⟨hframe, hlayouts, fun _ => ⟨?_, tablePlaced_freed line c s⟩, fun hone => absurd hone hline,
      framedBy_raised (tablePlaced_touches line c s) (by decide) (by decide)⟩
    rw [settle_paint_callingScroll]
    rfl

end Sys2Proof.Machine

/-! O9. The arbiter at rest: every command ends with its decision or leaves all that it weighs, and so does every turn of a
millisecond. -/

namespace Sys2Proof.Machine

/-! ### The millisecond's move of the timers -/

/-- The timers of an operation change no bank's report (R88). -/
theorem bankBusy_advanceOp (op : DirOp) (bank : Bank) : bankBusy (advanceOp op) bank = bankBusy op bank := by
  cases op with
  | suspending e c cause merged => cases hc : c.begun <;> simp [advanceOp, bankBusy, hc]
  | _ => rfl

/-- The timers of an operation leave the erase bank (R144). -/
theorem eraseBank_advanceOp (op : DirOp) : eraseBank (advanceOp op) = eraseBank op := by
  cases op with
  | suspending e c cause merged => cases hc : c.begun <;> simp [advanceOp, eraseBank, hc]
  | _ => rfl

theorem advanceTimers_isHeld (s : State) : isHeld (advanceTimers s) = isHeld s := by
  have hhold : (advanceTimers s).paint.hold = advanceHold s.paint.hold := rfl
  unfold isHeld
  rw [hhold]
  cases s.paint.hold <;> rfl

theorem advanceTimers_ownerOf (s : State) (line : Nat) : ownerOf (advanceTimers s) line = ownerOf s line := by
  unfold ownerOf
  rw [advanceTimers_bannerLine]
  rfl

theorem advanceTimers_eligible (s : State) : eligible (advanceTimers s) = eligible s := by
  funext line
  unfold eligible
  rw [advanceTimers_ownerOf]
  rfl

theorem advanceTimers_grantable (s : State) (slot : Slot) : grantable (advanceTimers s) slot = grantable s slot := by
  cases slot with
  | table =>
    simp only [grantable, firstEligible, advanceTimers_isHeld, advanceTimers_eligible]
    rfl
  | scroll | clock | banner => rfl

theorem advanceTimers_withdraw (s : State) : withdrawCondition (advanceTimers s) = withdrawCondition s := by
  have hop : (advanceTimers s).dir.op = advanceOp s.dir.op := rfl
  simp only [withdrawCondition, advanceTimers_isHeld, hop, eraseBank_advanceOp, advanceTimers_ownerOf]
  rfl

theorem advanceTimers_raise (s : State) : raiseCondition (advanceTimers s) = raiseCondition s := by
  have hop : (advanceTimers s).dir.op = advanceOp s.dir.op := rfl
  simp only [raiseCondition, advanceTimers_isHeld, hop, eraseBank_advanceOp, advanceTimers_ownerOf]
  rfl

/-- Timers that move on give an arbiter at rest nothing to decide. -/
theorem advanceTimers_settled {s : State} (h : Settled s) : Settled (advanceTimers s) := by
  obtain ⟨hbankA, hbankB, hgrant, hwithdraw, hraise⟩ := h
  exact ⟨hbankA.trans (bankBusy_advanceOp s.dir.op .a).symm, hbankB.trans (bankBusy_advanceOp s.dir.op .b).symm,
    fun hjob slot => (advanceTimers_grantable s slot).trans (hgrant hjob slot),
    fun hq => (advanceTimers_withdraw s).trans (hwithdraw hq), fun hq => (advanceTimers_raise s).trans (hraise hq)⟩

/-! ### The millisecond -/

/-- A choice between two states at rest. -/
theorem settled_ite {p : Prop} [Decidable p] {s t : State} (hs : Settled s) (ht : Settled t) :
    Settled (if p then s else t) := by
  split
  · exact hs
  · exact ht

theorem withTime_settled {s : State} (h : Settled s) (v : Timekeeper) : Settled (s.withTime v) :=
  settled_congr ((withTime_sameBut v s).mono (by simp [asideParts])) h

theorem runClock_settled {s : State} (h : Settled s) : Settled (runClock s) :=
  settled_ite (settled_ite (withTime_settled h _) (settled_ite (withTime_settled h _) (settled_settle _))) h

theorem runTurns_settled (l : List Turn) {s : State} (h : Settled s) : Settled (runTurns l s) := by
  induction l generalizing s with
  | nil => exact h
  | cons x rest ih =>
    have hturn : Settled (fireWhen x.due x.event s) := settled_ite (settled_settle _) h
    exact ih hturn

theorem tick_settled {s : State} (h : Settled s) : Settled (tick s) := by
  rw [tick_eq]
  exact runTurns_settled _ (runClock_settled (advanceTimers_settled h))

/-! ### Every command -/

/-- What a command ends with: the arbiter's decision, a change of the staff key input, a hard reset, or nothing (R128). -/
inductive Ended (s : State) : State → Prop
  | unheard : Ended s s
  | decided (u : State) : Ended s (settle u)
  | keyInput (closed : Bool) : Ended s (keyInputChange closed s)
  | reset : Ended s (hardReset s)

theorem event_ended (f : State → State) (s : State) : Ended s (event f s) := by
  unfold event
  split
  · exact .decided _
  · exact .unheard

theorem feedEvent_ended (f : State → State) (s : State) : Ended s (feedEvent f s) := by
  unfold feedEvent
  split
  · split
    · exact .unheard
    · exact .decided _
  · exact .unheard

theorem releaseReset_ended (geo1 geo0 : Bool) (s : State) : Ended s (releaseReset geo1 geo0 s) := by
  cases hphase : s.phase with
  | running => exact (releaseReset_running geo1 geo0 hphase).symm ▸ .unheard
  | inReset => exact (releaseReset_eq geo1 geo0 hphase).symm ▸ .decided _

theorem exec_ended {i : Instr} {s t : State} (h : exec i s = .next t) : Ended s t := by
  have next {u : State} (hu : Ended s u) (e : (Host.Outcome.next u : Host.Outcome State Fault Refusal) = .next t) :
      Ended s t := by
    cases e; exact hu
  cases i with
  | feedOctet | missingOctet | overheadRecord | postService | amendService | retireService | clearBoard | readService
  | writePlace | eraseSector | suspendErase | resumeErase | lockSectors | freeSectors | readPlace | holdBoard | releaseBoard
  | setBanner | clearBanner | setBoard | restart | readBoard => exact next (feedEvent_ended _ s) h
  | minuteEvent | feedLapsed | sweepWindowExpiry | writeComplete | gatherWindowExpiry | sectorEraseComplete
  | suspensionComplete | lockChangeComplete | scanEnd | holdLapse | bannerExpiry | tableJobComplete | clockJobComplete
  | callingStepComplete | bannerComposeComplete | bannerStepComplete | scrollPauseExpiry | scrollStepDue | refresh
  | shiftComplete | returnOctet | staffKeyDebounced => exact next (event_ended _ s) h
  | staffKeyInputChange closed => exact next (.keyInput closed) h
  | powerOn | resetLineAssert => exact next .reset h
  | resetRelease geo1 geo0 => exact next (releaseReset_ended geo1 geo0 s) h

/-- A part in reset has both banks busy with the scan and nothing requested (R94, R146). -/
theorem hardReset_settled (s : State) : Settled (hardReset s) := by
  refine ⟨rfl, rfl, fun _ slot => ?_, nofun, fun _ => rfl⟩
  cases slot <;> rfl

theorem Ended.settled {s t : State} (he : Ended s t) (h : Settled s) : Settled t := by
  cases he with
  | unheard => exact h
  | decided u => exact settled_settle u
  | keyInput closed => exact settled_congr ((withKey_sameBut _ s).mono (by simp [asideParts])) h
  | reset => exact hardReset_settled s

/-- Settles O9, by what a command ends with and by the turns of a millisecond. -/
theorem arbiterAtRestKept : Obligations.ArbiterAtRestKept := by
  intro s t hs hstep
  unfold step at hstep
  split at hstep
  · cases hstep
    unfold idle
    split
    · exact tick_settled hs
    · exact hs
  · exact (exec_ended hstep).settled hs

end Sys2Proof.Machine

/-! O46. The hold taken, released and lapsed: one field and an answer, which give the arbiter no request. -/

namespace Sys2Proof.Machine

/-- The part with its hold set. -/
def withHold (v : Hold) (s : State) : State := s.withPaint { s.paint with hold := v }

theorem withHold_sameBut (v : Hold) (s : State) : SameBut [.hold] s (withHold v s) := by
  intro p hp
  cases p <;> simp_all [Part.same, withHold]

/-- The outcome of a RELEASE BOARD by the hold it finds (R142). -/
def releaseOutcome : Hold → Nat
  | .held _ => 0
  | .lapsed => 18
  | .free => 17

theorem acceptRelease_eq (h : Header) (s : State) : acceptRelease h s =
    answer kindRelease h (releaseOutcome s.paint.hold) s.paint.dirty.length (withHold .free s) := by
  unfold acceptRelease
  cases hhold : s.paint.hold with
  | held remaining => rfl
  | lapsed => rfl
  | free =>
    have hsame : withHold .free s = s := by rw [← hhold]; rfl
    rw [hsame]
    rfl

theorem lapseHold_held {s : State} {remaining : Nat} (h : s.paint.hold = .held remaining) :
    lapseHold s = withHold .lapsed s := by
  unfold lapseHold
  rw [h]
  rfl

theorem lapseHold_other {s : State} (h : ¬ ∃ remaining, s.paint.hold = .held remaining) : lapseHold s = s := by
  unfold lapseHold
  cases hhold : s.paint.hold with
  | held remaining => exact absurd ⟨remaining, hhold⟩ h
  | free | lapsed => rfl

/-- A message that sets the hold and is answered, taken whole. -/
theorem settle_held_answer (kind : Byte) (h : Header) (outcome detail : Nat) (v : Hold) (s : State) :
    (settle (answer kind h outcome detail (withHold v s))).paint.hold = v ∧
      Answered kind h outcome detail s (settle (answer kind h outcome detail (withHold v s))) ∧
      QuietlyFramed [.hold, .results] s (settle (answer kind h outcome detail (withHold v s))) := by
  refine ⟨?_, (answered_congr rfl rfl).1 (answered_settle kind h outcome detail (withHold v s)), quietlyFramed_settle
    ((withHold_sameBut v s).trans (answer_sameBut kind h outcome detail _)) (by simp)⟩
  rw [settle_paint_hold, answer_paint]
  rfl

/-- Settles O46, by the hold that each event finds. -/
theorem holdTakenReleasedLapsed : Obligations.HoldTakenReleasedLapsed := by
  refine ⟨fun h s hs => ⟨?_, ?_⟩, fun s hrun => ⟨_, congrArg Host.Outcome.next (event_of_running hrun _), ?_⟩⟩
  · exact ⟨_, congrArg Host.Outcome.next (feedEvent_of_listening hs _), settle_held_answer kindHold h 0 _ _ s⟩
  · refine ⟨_, congrArg Host.Outcome.next (feedEvent_of_listening hs _), ?_⟩
    rw [acceptRelease_eq]
    obtain ⟨hfree, hanswer, hframe⟩ :=
      settle_held_answer kindRelease h (releaseOutcome s.paint.hold) s.paint.dirty.length .free s
    generalize settle (answer kindRelease h (releaseOutcome s.paint.hold) s.paint.dirty.length (withHold .free s)) = t at *
    refine ⟨hfree, ?_, fun hlapsed => ?_, fun hnone => ?_, hframe⟩
    · rintro ⟨remaining, hheld⟩
      rwa [hheld] at hanswer
    · rwa [hlapsed] at hanswer
    · rwa [hnone] at hanswer
  · by_cases hheld : ∃ remaining, s.paint.hold = .held remaining
    · obtain ⟨remaining, hhold⟩ := hheld
      rw [lapseHold_held hhold]
      refine ⟨fun _ => ?_, fun hnot => absurd ⟨remaining, hhold⟩ hnot,
        quietlyFramed_settle (withHold_sameBut .lapsed s) (by simp)⟩
      rw [settle_paint_hold]
      rfl
    · rw [lapseHold_other hheld]
      exact ⟨fun hyes => absurd hyes hheld, fun _ => settle_paint_hold s, quietlyFramed_settle (.refl _ s) (by simp)⟩

end Sys2Proof.Machine

/-! O50. The CLOCK job and the banner compose that end: the engine free, and the compose placed on a line its slot still owns. -/

namespace Sys2Proof.Machine

/-! ### The CLOCK job -/

section
variable {s : State} {out : Option Composed} {c : Composed}

theorem clockJobDone_unplaced (hjob : s.paint.job = some (.clock out))
    (h : out = none ∨ ownerOf s (s.lines - 1) ≠ .clock) : clockJobDone s = freeEngine s := by
  unfold clockJobDone
  rw [hjob]
  rcases h with rfl | howner
  · rfl
  · cases out with
    | none => rfl
    | some c => exact if_neg howner

theorem clockJobDone_placed (hjob : s.paint.job = some (.clock (some c))) (howner : ownerOf s (s.lines - 1) = .clock) :
    clockJobDone s = tablePlaced (s.lines - 1) c s := by
  unfold clockJobDone
  rw [hjob]
  exact if_pos howner

end

/-! ### The banner compose -/

/-- The part with a banner's compose placed and the engine free: the banner's scroll begun anew or stopped (R137, R140). -/
def bannerPlaced (line : Nat) (c : Composed) (s : State) : State :=
  restartScroll .banner c.strip (tablePlaced line c s)

section
variable {s : State} {line : Nat} {c : Composed}

theorem bannerComposeDone_none (hjob : s.paint.job = some (.bannerCompose none)) : bannerComposeDone s = freeEngine s := by
  unfold bannerComposeDone
  rw [hjob]

theorem bannerComposeDone_unplaced (hjob : s.paint.job = some (.bannerCompose (some (line, c))))
    (howner : ownerOf s line ≠ .banner) : bannerComposeDone s = freeEngine s := by
  unfold bannerComposeDone
  rw [hjob]
  exact if_neg howner

theorem bannerComposeDone_placed (hjob : s.paint.job = some (.bannerCompose (some (line, c))))
    (howner : ownerOf s line = .banner) : bannerComposeDone s = bannerPlaced line c s := by
  unfold bannerComposeDone
  rw [hjob]
  exact if_pos howner

end

/-- A banner's compose placed, whole: its image and layout record, and the scroll it begins or stops; a static banner alone clears
the step (R124, R137, R140). -/
theorem bannerPlaced_eq (line : Nat) (c : Composed) (s : State) :
    bannerPlaced line c s = (placeImage line c.image s).withPaint { s.paint with
      job := none
      layouts := s.paint.layouts.set line c.layout
      bannerStep := c.strip.isSome && s.paint.bannerStep
      bannerScroll := (c.strip.map (pausedAt s)).getD .still } := by
  unfold bannerPlaced restartScroll
  cases c.strip <;> rfl

theorem bannerPlaced_touches (line : Nat) (c : Composed) (s : State) :
    SameBut [.frame, .layouts, .bannerScroll, .arbiter, .requests] s (bannerPlaced line c s) := by
  rw [bannerPlaced_eq]
  intro p hp
  cases p <;> simp_all [Part.same, placeImage]

theorem bannerPlaced_freed (line : Nat) (c : Composed) (s : State) :
    EngineFreed s.paint.callingStep (c.strip.isSome && s.paint.bannerStep) s (settle (bannerPlaced line c s)) := by
  rw [bannerPlaced_eq]
  exact ⟨_, rfl, rfl, rfl, rfl, rfl, rfl, rfl, rfl, rfl, rfl⟩

/-- A banner step that a static banner cleared does not rise in the decision (R137). -/
theorem bannerPlaced_noStep {c : Composed} (line : Nat) (s : State) (h : c.strip = none) :
    (settle (bannerPlaced line c s)).paint.bannerStep = false := by
  rw [bannerPlaced_eq, h]
  exact Bool.eq_false_iff.2 fun hstep => Bool.false_ne_true ((settle_noneRaised _).2.2.2.1 hstep)

theorem bannerPlaced_scroll (line : Nat) (c : Composed) (s : State) :
    (settle (bannerPlaced line c s)).paint.bannerScroll = (c.strip.map (pausedAt s)).getD .still := by
  rw [settle_paint_bannerScroll, bannerPlaced_eq]
  rfl

theorem bannerPlaced_placed (line : Nat) (c : Composed) (s : State) :
    (settle (bannerPlaced line c s)).frame = { s.frame with pending := s.frame.pending.set line (some c.image) } ∧
      (settle (bannerPlaced line c s)).paint.layouts = s.paint.layouts.set line c.layout := by
  rw [settle_frame, settle_paint_layouts, bannerPlaced_eq]
  exact ⟨rfl, rfl⟩

/-! ### The ends of both -/

/-- A job that ends without a placement frees the engine and touches nothing else (R130). -/
theorem freeEngine_framed (s : State) : FramedBy [] s (settle (freeEngine s)) :=
  framedBy_raised (freeEngine_touches s) (by decide) (by decide)

/-- Settles O50, by whether the compose has a line and whether its slot still owns it. -/
theorem clockAndBannerPlaced : Obligations.ClockAndBannerPlaced := by
  refine ⟨fun s out hrun hjob => ⟨settle (clockJobDone s), congrArg Host.Outcome.next (event_of_running hrun _), ?_⟩,
    fun s out hrun hjob => ⟨settle (bannerComposeDone s), congrArg Host.Outcome.next (event_of_running hrun _), ?_, ?_⟩⟩
  · by_cases hplaced : out = none ∨ ownerOf s (s.lines - 1) ≠ .clock
    · rw [clockJobDone_unplaced hjob hplaced]
      refine ⟨freeEngine_freed s, fun _ => freeEngine_framed s, ?_⟩
      rintro c rfl howner
      exact absurd howner (hplaced.resolve_left nofun)
    · obtain ⟨hsome, howner⟩ := not_or.1 hplaced
      obtain ⟨c, rfl⟩ := Option.ne_none_iff_exists'.1 hsome
      rw [clockJobDone_placed hjob (not_not.1 howner)]
      obtain ⟨hframe, hlayouts⟩ := tablePlaced_placed (s.lines - 1) c s
      refine ⟨tablePlaced_freed _ c s, fun hnot => absurd hnot hplaced, ?_⟩
      rintro _ ⟨⟩ -
      exact ⟨hframe, hlayouts, framedBy_raised (tablePlaced_touches _ c s) (by decide) (by decide)⟩
  · rintro rfl
    rw [bannerComposeDone_none hjob]
    exact ⟨freeEngine_framed s, freeEngine_freed s⟩
  · rintro line c rfl
    refine ⟨fun howner => ?_, fun howner => ?_⟩
    · rw [bannerComposeDone_unplaced hjob howner]
      exact ⟨freeEngine_framed s, freeEngine_freed s⟩
    · rw [bannerComposeDone_placed hjob howner]
      obtain ⟨hframe, hlayouts⟩ := bannerPlaced_placed line c s
      have hscroll := bannerPlaced_scroll line c s
      have hfreed := bannerPlaced_freed line c s
      refine ⟨hframe, hlayouts, fun hstill => ?_, fun strip hstrip => ?_,
        framedBy_raised (bannerPlaced_touches line c s) (by decide) (by decide)⟩
      · rw [hstill] at hscroll hfreed
        exact ⟨hscroll, bannerPlaced_noStep line s hstill, hfreed⟩
      · rw [hstrip] at hscroll hfreed
        exact ⟨hscroll, hfreed⟩

end Sys2Proof.Machine

/-! O51. A scroll step that ends: its window placed on a line that is still the scroll's, and the offset moved. Both scrolls are
taken alike. -/

namespace Sys2Proof.Machine

/-- The part with a step landed and its window placed, the engine free (R130, R136). -/
def stepPlaced (which : ScrollId) (line : Nat) (r : StepResult) (s : State) : State :=
  placeImage line r.image (landStep which r (freeEngine s))

/-- The part of the State a scroll is. -/
def scrollPart : ScrollId → Part
  | .calling => .callingScroll
  | .banner => .bannerScroll

/-! ### The step's end, case by case -/

section
variable {s : State} {line : Nat} {r : StepResult}

theorem callingStepDone_none (hjob : s.paint.job = some (.callingStep none)) : callingStepDone s = freeEngine s := by
  unfold callingStepDone
  rw [hjob]

theorem callingStepDone_unplaced (hjob : s.paint.job = some (.callingStep (some r))) (howner : ownerOf s 1 ≠ .table) :
    callingStepDone s = freeEngine s := by
  unfold callingStepDone
  rw [hjob]
  exact if_neg howner

theorem callingStepDone_placed (hjob : s.paint.job = some (.callingStep (some r))) (howner : ownerOf s 1 = .table) :
    callingStepDone s = stepPlaced .calling 1 r s := by
  unfold callingStepDone
  rw [hjob]
  exact if_pos howner

theorem bannerStepDone_none (hjob : s.paint.job = some (.bannerStep none)) : bannerStepDone s = freeEngine s := by
  unfold bannerStepDone
  rw [hjob]

theorem bannerStepDone_unplaced (hjob : s.paint.job = some (.bannerStep (some (line, r))))
    (howner : ownerOf s line ≠ .banner) : bannerStepDone s = freeEngine s := by
  unfold bannerStepDone
  rw [hjob]
  exact if_neg howner

theorem bannerStepDone_placed (hjob : s.paint.job = some (.bannerStep (some (line, r))))
    (howner : ownerOf s line = .banner) : bannerStepDone s = stepPlaced .banner line r s := by
  unfold bannerStepDone
  rw [hjob]
  exact if_pos howner

end

/-! ### The scroll a step lands on -/

section
variable {which : ScrollId} {r : StepResult} {s : State} {strip : List Column} {offset wait : Int}

theorem landStep_atZero (hscroll : scrollOf s.paint which = .moving strip offset wait) (hzero : r.offset = 0) :
    landStep which r s = withScroll which (beginPause s strip) (clearStep which s) := by
  unfold landStep
  rw [hscroll]
  exact if_pos hzero

theorem landStep_moved (hscroll : scrollOf s.paint which = .moving strip offset wait) (hmoved : r.offset ≠ 0) :
    landStep which r s = withScroll which (.moving strip r.offset wait) s := by
  unfold landStep
  rw [hscroll]
  exact if_neg hmoved

theorem landStep_still (hscroll : scrollOf s.paint which = .still) : landStep which r s = s := by
  unfold landStep
  rw [hscroll]

end

theorem withScroll_touches (which : ScrollId) (sc : Scroll) (s : State) :
    SameBut [scrollPart which] s (withScroll which sc s) := by
  cases which <;> (intro p hp; cases p <;> simp_all [Part.same, withScroll, scrollPart])

theorem clearStep_touches (which : ScrollId) (s : State) : SameBut [.requests] s (clearStep which s) := by
  cases which <;> (intro p hp; cases p <;> simp_all [Part.same, clearStep])

theorem landStep_touches (which : ScrollId) (r : StepResult) (s : State) :
    SameBut [.requests, scrollPart which] s (landStep which r s) := by
  unfold landStep
  split
  · exact sameBut_ite ((clearStep_touches which s).trans (withScroll_touches which _ _))
      ((withScroll_touches which _ s).mono (by simp))
  · exact .refl _ s
  · exact .refl _ s

theorem landStep_frame (which : ScrollId) (r : StepResult) (s : State) : (landStep which r s).frame = s.frame :=
  landStep_touches which r s .frame (by cases which <;> decide)

/-- The end of an event leaves both scrolls. -/
theorem settle_scrollOf (which : ScrollId) (s : State) : scrollOf (settle s).paint which = scrollOf s.paint which := by
  cases which <;> simp [scrollOf]

/-- A step that is not pending does not rise in the decision (R128). -/
theorem settle_pendingStep {which : ScrollId} {s : State} (h : pendingStep s.paint which = false) :
    pendingStep (settle s).paint which = false := by
  obtain ⟨hcalling, -, -, hbanner, -⟩ := settle_noneRaised s
  cases which with
  | calling => exact Bool.eq_false_iff.2 fun hstep => Bool.false_ne_true (h.symm.trans (hcalling hstep))
  | banner => exact Bool.eq_false_iff.2 fun hstep => Bool.false_ne_true (h.symm.trans (hbanner hstep))

/-! ### What a landed step leaves -/

/-- A step of a scroll has ended on a line that is still the scroll's: the window placed, the offset moved or the pause begun
again with the pending step cleared, a stopped scroll left STILL, and the engine free (R130, R134, R136). -/
def StepLanded (which : ScrollId) (line : Nat) (r : StepResult) (s t : State) : Prop :=
  t.frame = { s.frame with pending := s.frame.pending.set line (some r.image) } ∧
    (∀ strip offset wait, scrollOf s.paint which = .moving strip offset wait →
      (r.offset = 0 → scrollOf t.paint which = pausedAt s strip ∧ pendingStep t.paint which = false ∧
        EngineFreed (clearStep which s).paint.callingStep (clearStep which s).paint.bannerStep s t) ∧
      (r.offset ≠ 0 → scrollOf t.paint which = .moving strip r.offset wait ∧
        EngineFreed s.paint.callingStep s.paint.bannerStep s t)) ∧
    (scrollOf s.paint which = .still → scrollOf t.paint which = .still ∧
      EngineFreed s.paint.callingStep s.paint.bannerStep s t) ∧
    FramedBy [.frame, scrollPart which] s t

theorem stepPlaced_touches (which : ScrollId) (line : Nat) (r : StepResult) (s : State) :
    SameBut [.arbiter, .requests, scrollPart which, .frame] s (stepPlaced which line r s) :=
  ((freeEngine_touches s).trans (landStep_touches which r _)).trans (withFrame_sameBut _ _)

theorem freeEngine_scrollOf (which : ScrollId) (s : State) :
    scrollOf (freeEngine s).paint which = scrollOf s.paint which := by
  cases which <;> rfl

theorem stepPlaced_landed (which : ScrollId) (line : Nat) (r : StepResult) (s : State) :
    StepLanded which line r s (settle (stepPlaced which line r s)) := by
  have hfree := freeEngine_scrollOf which s
  refine ⟨?_, fun strip offset wait hmoving => ⟨fun hzero => ?_, fun hmoved => ?_⟩, fun hstill => ?_,
    framedBy_raised (stepPlaced_touches which line r s) (by cases which <;> decide) (by cases which <;> decide)⟩
  · have hframe := landStep_frame which r (freeEngine s)
    rw [settle_frame]
    unfold stepPlaced placeImage
    rw [hframe]
    rfl
  · unfold stepPlaced
    rw [landStep_atZero (hfree.trans hmoving) hzero, settle_scrollOf]
    cases which with
    | calling => exact ⟨rfl, settle_pendingStep rfl, _, rfl, rfl, rfl, rfl, rfl, rfl, rfl, rfl, rfl, rfl⟩
    | banner => exact ⟨rfl, settle_pendingStep rfl, _, rfl, rfl, rfl, rfl, rfl, rfl, rfl, rfl, rfl, rfl⟩
  · unfold stepPlaced
    rw [landStep_moved (hfree.trans hmoving) hmoved, settle_scrollOf]
    cases which with
    | calling => exact ⟨rfl, _, rfl, rfl, rfl, rfl, rfl, rfl, rfl, rfl, rfl, rfl⟩
    | banner => exact ⟨rfl, _, rfl, rfl, rfl, rfl, rfl, rfl, rfl, rfl, rfl, rfl⟩
  · unfold stepPlaced
    rw [landStep_still (hfree.trans hstill), settle_scrollOf]
    exact ⟨hfree.trans hstill, _, rfl, rfl, rfl, rfl, rfl, rfl, rfl, rfl, rfl, rfl⟩

/-- Settles O51, by whether the line is still the scroll's. -/
theorem scrollStepsLand : Obligations.ScrollStepsLand := by
  refine ⟨fun s r hrun hjob => ⟨_, congrArg Host.Outcome.next (event_of_running hrun _), fun howner => ?_, fun howner => ?_⟩,
    fun s line r hrun hjob => ⟨_, congrArg Host.Outcome.next (event_of_running hrun _), fun howner => ?_, fun howner => ?_⟩,
    fun s hrun => ⟨fun hjob => ⟨_, congrArg Host.Outcome.next (event_of_running hrun _), ?_⟩,
      fun hjob => ⟨_, congrArg Host.Outcome.next (event_of_running hrun _), ?_⟩⟩⟩
  · rw [callingStepDone_unplaced hjob howner]
    exact ⟨freeEngine_framed s, freeEngine_freed s⟩
  · rw [callingStepDone_placed hjob howner]
    exact stepPlaced_landed .calling 1 r s
  · rw [bannerStepDone_unplaced hjob howner]
    exact ⟨freeEngine_framed s, freeEngine_freed s⟩
  · rw [bannerStepDone_placed hjob howner]
    exact stepPlaced_landed .banner line r s
  · rw [callingStepDone_none hjob]
    exact ⟨freeEngine_framed s, freeEngine_freed s⟩
  · rw [bannerStepDone_none hjob]
    exact ⟨freeEngine_framed s, freeEngine_freed s⟩

end Sys2Proof.Machine

/-! O52. The timers of the scrolls: a pause that ends, and a step that falls due, which an idle arbiter may grant at once. Both
scrolls are taken alike. -/

namespace Sys2Proof.Machine

/-! ### A pause that ends -/

theorem endPause_paused {which : ScrollId} {s : State} {strip : List Column} {wait : Nat}
    (h : scrollOf s.paint which = .paused strip wait) :
    endPause which s = withScroll which (.moving strip 0 (stepNs s)) s := by
  unfold endPause
  rw [h]
  rfl

theorem endPause_other {which : ScrollId} {s : State} (h : ∀ strip wait, scrollOf s.paint which ≠ .paused strip wait) :
    endPause which s = s := by
  unfold endPause
  split
  · next strip wait hpaused => exact absurd hpaused (h strip wait)
  · rfl
  · rfl

theorem endPause_touches (which : ScrollId) (s : State) : SameBut [scrollPart which] s (endPause which s) := by
  unfold endPause
  split
  · exact withScroll_touches which _ s
  · exact .refl _ s
  · exact .refl _ s

/-- What the end of a pause leaves of its scroll: MOVING at offset 0 when it was PAUSED (R134, R135). -/
theorem settle_endPause (which : ScrollId) (s : State) :
    FramedAtRest [scrollPart which] s (settle (endPause which s)) ∧
      (∀ strip wait, scrollOf s.paint which = .paused strip wait →
        scrollOf (settle (endPause which s)).paint which = .moving strip 0 (stepNs s)) ∧
      ((∀ strip wait, scrollOf s.paint which ≠ .paused strip wait) →
        scrollOf (settle (endPause which s)).paint which = scrollOf s.paint which) := by
  refine ⟨framedAtRest_settle (endPause_touches which s) (by cases which <;> simp [scrollPart, asideParts]),
    fun strip wait hpaused => ?_, fun hother => ?_⟩
  · rw [settle_scrollOf, endPause_paused hpaused, scrollOf_withScroll, if_pos rfl]
  · rw [settle_scrollOf, endPause_other hother]

/-! ### A step that falls due -/

theorem stepDue_moving {which : ScrollId} {s : State} {strip : List Column} {offset wait : Int}
    (h : scrollOf s.paint which = .moving strip offset wait) :
    stepDue which s = raiseStep which (withScroll which (.moving strip offset (min wait 0 + stepNs s)) s) := by
  unfold stepDue
  rw [h]
  cases which <;> rfl

theorem stepDue_other {which : ScrollId} {s : State}
    (h : ∀ strip offset wait, scrollOf s.paint which ≠ .moving strip offset wait) : stepDue which s = s := by
  unfold stepDue
  split
  · next strip offset wait hmoving => exact absurd hmoving (h strip offset wait)
  · rfl
  · rfl

theorem raiseStep_touches (which : ScrollId) (s : State) : SameBut [.requests] s (raiseStep which s) := by
  cases which <;> (intro p hp; cases p <;> simp_all [Part.same, raiseStep])

theorem raiseStep_pending (which : ScrollId) (s : State) : pendingStep (raiseStep which s).paint which = true := by
  cases which <;> rfl

theorem stepDue_touches (which : ScrollId) (s : State) : SameBut [scrollPart which, .requests] s (stepDue which s) := by
  unfold stepDue
  split
  · cases which with
    | calling => exact (withScroll_touches .calling _ s).trans (raiseStep_touches .calling _)
    | banner => exact (withScroll_touches .banner _ s).trans (raiseStep_touches .banner _)
  · exact .refl _ s
  · exact .refl _ s

/-! ### The decision on a pending step -/

/-- The job that a grant makes of a pending step: a banner compose serves the banner's step with it (R124, R128). -/
def ServesStep : ScrollId → Job → Prop
  | .calling, j => ∃ out, j = .callingStep out
  | .banner, j => (∃ out, j = .bannerStep out) ∨ ∃ out, j = .bannerCompose out

/-- A grant serves a pending step or leaves it. -/
theorem grant_step {which : ScrollId} {slot : Slot} {s : State} (h : pendingStep s.paint which = true) :
    pendingStep (grant slot s).paint which = true ∨ ∃ j, (grant slot s).paint.job = some j ∧ ServesStep which j := by
  cases slot with
  | table =>
    left
    simp only [grant]
    split
    · cases which <;> exact h
    · exact h
  | clock => left; cases which <;> exact h
  | scroll =>
    cases which with
    | calling => exact .inr ⟨_, rfl, _, rfl⟩
    | banner => exact .inl h
  | banner =>
    simp only [grant]
    cases which with
    | calling => left; split <;> exact h
    | banner =>
      right
      split
      · exact ⟨_, rfl, .inr ⟨_, rfl⟩⟩
      · exact ⟨_, rfl, .inl ⟨_, rfl⟩⟩

theorem judgeRequest_pendingStep (which : ScrollId) (s : State) :
    pendingStep (judgeRequest s).paint which = pendingStep s.paint which := by
  cases which <;> simp [pendingStep]

/-- A step that is pending when the arbiter decides stands after it, or an idle arbiter has granted it (R128, R135). -/
theorem settle_step {which : ScrollId} {u : State} (h : pendingStep u.paint which = true) :
    pendingStep (settle u).paint which = true ∨
      (u.paint.job = none ∧ ∃ j, (settle u).paint.job = some j ∧ ServesStep which j) := by
  have hjudged : pendingStep (judgeRequest u).paint which = true := (judgeRequest_pendingStep which u).trans h
  have hdecided := decideGrant_request (request := fun v => pendingStep v.paint which = true) (granted := ServesStep which)
    hjudged fun slot => grant_step hjudged
  unfold settle
  rwa [judgeRequest_pendingStep, judgeRequest_job, ← judgeRequest_job u]

/-- What a step that falls due leaves: its scroll's timer run on and the step pending or granted, when the scroll is MOVING
(R135). -/
theorem settle_stepDue (which : ScrollId) (s : State) :
    FramedBy [scrollPart which] s (settle (stepDue which s)) ∧
      (∀ strip offset wait, scrollOf s.paint which = .moving strip offset wait →
        scrollOf (settle (stepDue which s)).paint which = .moving strip offset (min wait 0 + stepNs s) ∧
        (pendingStep (settle (stepDue which s)).paint which = true ∨
          (s.paint.job = none ∧ ∃ j, (settle (stepDue which s)).paint.job = some j ∧ ServesStep which j))) ∧
      ((∀ strip offset wait, scrollOf s.paint which ≠ .moving strip offset wait) →
        scrollOf (settle (stepDue which s)).paint which = scrollOf s.paint which) := by
  refine ⟨framedBy_raised (stepDue_touches which s) (by cases which <;> decide) (by cases which <;> decide),
    fun strip offset wait hmoving => ?_, fun hother => ?_⟩
  · obtain ⟨hjob, -⟩ := stepDue_touches which s .arbiter (by cases which <;> decide)
    rw [stepDue_moving hmoving] at hjob ⊢
    have hstep := settle_step (raiseStep_pending which (withScroll which (.moving strip offset (min wait 0 + stepNs s)) s))
    rw [hjob] at hstep
    rw [settle_scrollOf, scrollOf_raiseStep, scrollOf_withScroll, if_pos rfl]
    exact ⟨rfl, hstep⟩
  · rw [settle_scrollOf, stepDue_other hother]

/-- Settles O52, the pause and the step of each scroll in turn. -/
theorem scrollTimersRun : Obligations.ScrollTimersRun := by
  intro s hrun
  refine ⟨⟨_, congrArg Host.Outcome.next (event_of_running hrun _), settle_endPause .calling s⟩,
    ⟨_, congrArg Host.Outcome.next (event_of_running hrun _), settle_endPause .banner s⟩,
    ⟨_, congrArg Host.Outcome.next (event_of_running hrun _), ?_⟩,
    ⟨_, congrArg Host.Outcome.next (event_of_running hrun _), ?_⟩⟩
  · obtain ⟨hframe, hmoving, hother⟩ := settle_stepDue .calling s
    refine ⟨hframe, fun strip offset wait hscroll => ?_, hother⟩
    obtain ⟨hon, hstep⟩ := hmoving strip offset wait hscroll
    refine ⟨hon, hstep.imp_right ?_⟩
    rintro ⟨hidle, _, hjob, out, rfl⟩
    exact ⟨hidle, out, hjob⟩
  · obtain ⟨hframe, hmoving, hother⟩ := settle_stepDue .banner s
    refine ⟨hframe, fun strip offset wait hscroll => ?_, hother⟩
    obtain ⟨hon, hstep⟩ := hmoving strip offset wait hscroll
    refine ⟨hon, hstep.imp_right ?_⟩
    rintro ⟨hidle, _, hjob, ⟨out, rfl⟩ | ⟨out, rfl⟩⟩
    · exact ⟨hidle, .inl ⟨out, hjob⟩⟩
    · exact ⟨hidle, .inr ⟨out, hjob⟩⟩

end Sys2Proof.Machine

/-! O47. SET BANNER: the record replaced, its line taken from the slot that had it, and its compose raised. -/

namespace Sys2Proof.Machine

/-! ### Events that end with a job revoked -/

/-- A job revoked is not a job ended (R130). -/
theorem revokeJob_idle {s : State} (h : (revokeJob s).paint.job = none) : s.paint.job = none := by
  obtain ⟨job, heq, hslot⟩ := revokeJob_eq s
  rw [heq] at h
  have hnone : job = none := h
  rw [hnone] at hslot
  simpa using hslot.symm

theorem revokeJob_touches (s : State) : SameBut [.arbiter] s (revokeJob s) := by
  obtain ⟨job, heq, -⟩ := revokeJob_eq s
  rw [heq]
  intro p hp
  cases p <;> simp_all [Part.same]

theorem revokeJob_bannerLine (s : State) : bannerLine (revokeJob s) = bannerLine s := by
  have htouch := revokeJob_touches s
  exact bannerLine_congr (htouch .board (by decide)) (htouch .geometry (by decide)) (htouch .banner (by decide))

/-- An answer and the arbiter's decision leave the banner its line. -/
theorem settle_answer_bannerLine (kind : Byte) (h : Header) (outcome detail : Nat) (s : State) :
    bannerLine (settle (answer kind h outcome detail s)) = bannerLine s :=
  bannerLine_congr (by simp) (by simp) (by simp)

/-! ### The part with a new banner -/

/-- A new banner's line by the board state (R125). -/
theorem withNewBanner_line (b : Banner) (s : State) :
    (s.board = .showing → bannerLine (withNewBanner b s) = some (s.lines - 1)) ∧
      (s.board = .alert → bannerLine (withNewBanner b s) = some 1) ∧
      (s.board ≠ .showing → s.board ≠ .alert → bannerLine (withNewBanner b s) = none) := by
  refine ⟨fun hboard => ?_, fun hboard => ?_, fun hshowing halert => ?_⟩
  · simp [bannerLine, withNewBanner, State.lines, hboard]
  · simp [bannerLine, withNewBanner, hboard]
  · cases hboard : s.board <;> simp_all [bannerLine, withNewBanner]

/-- Line 1 passes to a new banner in ALERT alone, when none was set (R125, R137). -/
theorem withNewBanner_takesLineOne (b : Banner) (s : State) :
    (bannerLine (withNewBanner b s) = some 1 ∧ bannerLine s ≠ some 1) ↔ s.board = .alert ∧ s.paint.banner = none := by
  have hpos := lines_pos s
  have hlast : s.lines - 1 ≠ 1 := by omega
  obtain ⟨hshowing, halert, hother⟩ := withNewBanner_line b s
  by_cases ha : s.board = .alert
  · rw [halert ha]
    cases hbanner : s.paint.banner <;> simp [bannerLine, ha, hbanner]
  · have hne : bannerLine (withNewBanner b s) ≠ some 1 := by
      by_cases hs : s.board = .showing
      · simpa [hshowing hs] using hlast
      · simp [hother hs ha]
    simp [hne, ha]

/-- The part with a new banner, its line taken over: before the answer and the arbiter's decision (R138). -/
def bannerTaken (b : Banner) (s : State) : State := revokeJob (yieldCallingLine (bannerLine s) (withNewBanner b s))

theorem acceptSetBanner_taken {h : Header} {f : BannerFields} {s : State} (hf : bannerFieldsOK f = true) :
    acceptSetBanner h f s = answer kindSetBanner h 0 (textWidth .large f.text) (bannerTaken (newBanner f) s) := if_pos hf

theorem acceptSetBanner_refused {h : Header} {f : BannerFields} {s : State} (hf : ¬ bannerFieldsOK f = true) :
    acceptSetBanner h f s = answer kindSetBanner h 6 0 s := if_neg hf

theorem bannerFieldsOK_iff (f : BannerFields) : bannerFieldsOK f = true ↔ GlyphText 160 f.text ∧ f.duration ≤ 3600 := by
  simp [bannerFieldsOK, glyphText_iff]

/-- The part with a new banner, item by item: what its line, its compose and the calling scroll come to. -/
theorem bannerTaken_paint (b : Banner) (s : State) :
    (bannerTaken b s).paint.banner = some b ∧ (bannerTaken b s).paint.bannerScroll = .still ∧
      (bannerTaken b s).paint.bannerStep = false ∧ bannerLine (bannerTaken b s) = bannerLine (withNewBanner b s) ∧
      (bannerTaken b s).paint.bannerCompose = (bannerLine (withNewBanner b s)).isSome ∧
      (s.board = .alert ∧ s.paint.banner = none → (bannerTaken b s).paint.callingScroll = .still ∧
        (bannerTaken b s).paint.callingStep = false) ∧
      (¬ (s.board = .alert ∧ s.paint.banner = none) →
        (bannerTaken b s).paint.callingScroll = s.paint.callingScroll) := by
  have hline : bannerLine (bannerTaken b s) = bannerLine (withNewBanner b s) := by
    unfold bannerTaken
    rw [revokeJob_bannerLine, yieldCallingLine_eq]
    exact bannerLine_congr rfl rfl rfl
  obtain ⟨job, heq, -⟩ := revokeJob_eq (yieldCallingLine (bannerLine s) (withNewBanner b s))
  refine ⟨?_, ?_, ?_, hline, ?_, fun htakes => ?_, fun hleaves => ?_⟩
  all_goals
    unfold bannerTaken
    rw [heq, yieldCallingLine_eq]
  · rfl
  · rfl
  · rfl
  · rfl
  · have htaken := (withNewBanner_takesLineOne b s).2 htakes
    exact ⟨if_pos htaken, if_pos htaken⟩
  · exact if_neg (mt (withNewBanner_takesLineOne b s).1 hleaves)

theorem bannerTaken_idle {b : Banner} {s : State} (h : (bannerTaken b s).paint.job = none) : s.paint.job = none := by
  have hjob := revokeJob_idle h
  rwa [yieldCallingLine_eq] at hjob

theorem bannerTaken_touches (b : Banner) (s : State) :
    SameBut [.banner, .bannerScroll, .callingScroll, .requests, .arbiter] s (bannerTaken b s) := by
  have hyield : SameBut [.banner, .bannerScroll, .callingScroll, .requests] s
      (yieldCallingLine (bannerLine s) (withNewBanner b s)) := by
    rw [yieldCallingLine_eq]
    intro p hp
    cases p <;> simp_all [Part.same, withNewBanner]
  exact hyield.trans (revokeJob_touches _)

/-- Settles O47, by whether the text and the duration are in range. -/
theorem bannerSet : Obligations.BannerSet := by
  intro h f s hs
  refine ⟨_, congrArg Host.Outcome.next (feedEvent_of_listening hs _), fun hbad => ?_, fun htext hduration => ?_⟩
  · have hf : ¬ bannerFieldsOK f = true := by
      rw [bannerFieldsOK_iff, not_and_or, not_le]
      exact hbad
    rw [acceptSetBanner_refused hf]
    exact ⟨answered_settle _ _ _ _ s, answer_framed _ _ _ _ s⟩
  · rw [acceptSetBanner_taken ((bannerFieldsOK_iff f).2 ⟨htext, hduration⟩)]
    obtain ⟨hbanner, hscroll, hstep, hline, hcompose, htakes, hleaves⟩ := bannerTaken_paint (newBanner f) s
    obtain ⟨hshowing, halert, hother⟩ := withNewBanner_line (newBanner f) s
    have htouch := bannerTaken_touches (newBanner f) s
    have hidle := bannerTaken_idle (b := newBanner f) (s := s)
    generalize bannerTaken (newBanner f) s = u at *
    rw [← hline] at hshowing halert hother hcompose
    obtain ⟨hcalling, -, hraised, hbannerStep, -⟩ :=
      settle_noneRaised (answer kindSetBanner h 0 (textWidth .large f.text) u)
    rw [answer_paint] at hcalling hraised hbannerStep
    simp only [settle_answer_bannerLine, settle_paint_banner, settle_paint_bannerScroll, settle_paint_callingScroll, answer_paint]
    refine ⟨hbanner, hscroll, ?_, hshowing, halert, hother, fun howns => ?_, fun hnone => ?_, fun ha hb => ?_, fun hor => ?_,
      ?_, ?_⟩
    · exact Bool.eq_false_iff.2 (mt hbannerStep (Bool.eq_false_iff.1 hstep))
    · refine settle_composeRaised (by simpa using hidle) ?_
      rw [answer_paint, hcompose]
      exact Option.isSome_iff_ne_none.2 howns
    · rw [hnone] at hcompose
      exact Bool.eq_false_iff.2 (mt hraised (Bool.eq_false_iff.1 hcompose))
    · obtain ⟨hstill, hcleared⟩ := htakes ⟨ha, hb⟩
      exact ⟨hstill, Bool.eq_false_iff.2 (mt hcalling (Bool.eq_false_iff.1 hcleared))⟩
    · exact hleaves (fun hboth => hor.elim (fun hne => hne hboth.1) fun hne => hne hboth.2)
    · exact (answered_congr (htouch .results (by decide) : u.results = s.results).symm rfl).1 (answered_settle _ _ _ _ u)
    · exact framedBy_raised (htouch.trans (answer_sameBut _ _ _ _ u)) (by decide) (by decide)

end Sys2Proof.Machine

/-! O48. The banner removed, by CLEAR BANNER or at its duration's end: its line handed back and its job void. -/

namespace Sys2Proof.Machine

/-! ### The part without its banner -/

/-- The part with its banner removed, before a running job is revoked: the clock raised or line 1 marked, by the line the banner
had (R139). -/
def lineHandedBack (s : State) : State := s.withPaint { s.paint with
  banner := none
  bannerCompose := false
  bannerScroll := .still
  bannerStep := false
  clockRequest := decide (bannerLine s = some (s.lines - 1)) || s.paint.clockRequest
  dirty := setInsertAll (if bannerLine s = some 1 then [1] else []) s.paint.dirty }

theorem raiseClock_ite (p : Prop) [Decidable p] (s : State) : (if p then raiseClock s else s) =
    s.withPaint { s.paint with clockRequest := decide p || s.paint.clockRequest } := by
  by_cases h : p
  · rw [if_pos h, decide_eq_true h]
    rfl
  · rw [if_neg h, decide_eq_false h]
    rfl

theorem markLines_ite (p : Prop) [Decidable p] (lines : List Nat) (s : State) :
    (if p then markLines lines s else s) = markLines (if p then lines else []) s := by
  split <;> rfl

theorem removeBanner_eq (s : State) : removeBanner s = revokeJob (lineHandedBack s) := by
  have hback : lineHandedBack s = markLines (if bannerLine s = some 1 then [1] else [])
      (if bannerLine s = some (s.lines - 1) then raiseClock (withoutBanner s) else withoutBanner s) := by
    rw [raiseClock_ite]
    rfl
  rw [hback, ← markLines_ite]
  rfl

theorem removeBanner_touches (s : State) :
    SameBut [.banner, .bannerScroll, .requests, .dirty, .arbiter] s (removeBanner s) := by
  have hback : SameBut [.banner, .bannerScroll, .requests, .dirty] s (lineHandedBack s) := by
    intro p hp
    cases p <;> simp_all [Part.same, lineHandedBack]
  rw [removeBanner_eq]
  exact hback.trans (revokeJob_touches _)

theorem removeBanner_idle {s : State} (h : (removeBanner s).paint.job = none) : s.paint.job = none := by
  rw [removeBanner_eq] at h
  exact (revokeJob_idle h : (lineHandedBack s).paint.job = none)

/-- A line handed back has no banner to claim it. -/
theorem lineHandedBack_owner (s : State) (line : Nat) : ownerOf (lineHandedBack s) line ≠ .banner := by
  have hline : bannerLine (lineHandedBack s) = none := rfl
  unfold ownerOf
  rw [hline, if_neg nofun]
  split <;> nofun

/-- A banner job that runs places nothing once the banner is removed (R139). -/
theorem removeBanner_compose {s : State} {out : Option (Nat × Composed)} (hjob : s.paint.job = some (.bannerCompose out)) :
    (removeBanner s).paint.job = some (.bannerCompose none) := by
  have hback : (lineHandedBack s).paint.job = some (.bannerCompose out) := hjob
  rw [removeBanner_eq]
  unfold revokeJob
  rw [hback]
  rcases out with _ | ⟨line, c⟩
  · exact hback
  · exact congrArg (fun u : State => u.paint.job) (if_neg (lineHandedBack_owner s line))

theorem removeBanner_step {s : State} {out : Option (Nat × StepResult)} (hjob : s.paint.job = some (.bannerStep out)) :
    (removeBanner s).paint.job = some (.bannerStep none) := by
  have hback : (lineHandedBack s).paint.job = some (.bannerStep out) := hjob
  rw [removeBanner_eq]
  unfold revokeJob
  rw [hback]
  rcases out with _ | ⟨line, r⟩
  · exact hback
  · exact congrArg (fun u : State => u.paint.job) (if_neg (lineHandedBack_owner s line))

/-! ### After the decision -/

/-- The banner is gone: its scroll stopped, its requests cleared, its line handed back, and its job void (R139). -/
def BannerGone (s t : State) : Prop :=
  t.paint.banner = none ∧ t.paint.bannerScroll = .still ∧ t.paint.bannerStep = false ∧
    t.paint.bannerCompose = false ∧ (s.board = .showing → ClockRaised s t) ∧
    Marked (if s.board = .alert then [1] else []) s t ∧
    (∀ out, s.paint.job = some (.bannerCompose out) → t.paint.job = some (.bannerCompose none)) ∧
    (∀ out, s.paint.job = some (.bannerStep out) → t.paint.job = some (.bannerStep none)) ∧
    FramedBy [.banner, .bannerScroll, .results] s t

/-- A banner that is set owns line 1 in ALERT alone (R125). -/
theorem bannerLine_one_iff {s : State} (h : s.paint.banner ≠ none) : bannerLine s = some 1 ↔ s.board = .alert := by
  have hpos := lines_pos s
  have hlast : 1 ≠ s.lines - 1 := by omega
  rw [bannerLine_iff]
  simp [BannerOwns, h, hlast]

/-- The removal of a banner, with an answer or without, after the arbiter's decision. -/
theorem bannerGone_settle {s u : State} (hbanner : s.paint.banner ≠ none) (hu : SameBut [.results] (removeBanner s) u) :
    BannerGone s (settle u) := by
  have hpaint {p : Part} (hp : p ∉ ([.results] : List Part) := by decide) : p.same (removeBanner s) u := hu p hp
  obtain ⟨job, heq, -⟩ := revokeJob_eq (lineHandedBack s)
  obtain ⟨hjob, -⟩ := hpaint (p := .arbiter)
  obtain ⟨-, hclock, hcompose, hstep⟩ := hpaint (p := .requests)
  have hgone : u.paint.banner = (removeBanner s).paint.banner := hpaint (p := .banner)
  have hscroll : u.paint.bannerScroll = (removeBanner s).paint.bannerScroll := hpaint (p := .bannerScroll)
  have hdirty : u.paint.dirty = (removeBanner s).paint.dirty := hpaint (p := .dirty)
  have hidle : u.paint.job = none → s.paint.job = none := fun hnone => removeBanner_idle (hjob ▸ hnone)
  have hbusy {j : Job} (hrun : (removeBanner s).paint.job = some j) : (settle u).paint.job = some j := by
    rw [(settle_busy (by rw [hjob, hrun]; nofun)).2.1, hjob, hrun]
  obtain ⟨-, -, hnoCompose, hnoStep, -⟩ := settle_noneRaised u
  rw [removeBanner_eq, heq] at hclock hcompose hstep hgone hscroll hdirty
  refine ⟨by rw [settle_paint_banner, hgone]; rfl, by rw [settle_paint_bannerScroll, hscroll]; rfl,
    Bool.eq_false_iff.2 (mt hnoStep (Bool.eq_false_iff.1 hstep)),
    Bool.eq_false_iff.2 (mt hnoCompose (Bool.eq_false_iff.1 hcompose)), fun hshowing => settle_clockRaised hidle ?_,
    settle_marked hidle fun n => ?_, fun out hrun => hbusy (removeBanner_compose hrun),
    fun out hrun => hbusy (removeBanner_step hrun),
    framedBy_raised ((removeBanner_touches s).trans hu) (by decide) (by decide)⟩
  · have hline : bannerLine s = some (s.lines - 1) := (bannerLine_iff ..).2 ⟨hbanner, .inl ⟨hshowing, rfl⟩⟩
    rw [hclock]
    simp [lineHandedBack, hline]
  · rw [hdirty]
    simp only [lineHandedBack, bannerLine_one_iff hbanner]
    exact mem_setInsertAll

/-! ### CLEAR BANNER and the duration's end -/

section
variable {h : Header} {s : State} {b : Banner}

theorem acceptClearBanner_none (hnone : s.paint.banner = none) :
    acceptClearBanner h s = answer kindClearBanner h 0 0 s := by
  unfold acceptClearBanner
  rw [hnone]
  rfl

theorem acceptClearBanner_some (hbanner : s.paint.banner = some b) :
    acceptClearBanner h s = answer kindClearBanner h 0 1 (removeBanner s) := by
  unfold acceptClearBanner
  rw [hbanner]
  rfl

theorem expireBanner_some (hbanner : s.paint.banner = some b) (hruns : b.remaining ≠ none) :
    expireBanner s = removeBanner s := by
  unfold expireBanner
  rw [hbanner]
  exact if_pos (Option.isSome_iff_ne_none.2 hruns)

theorem expireBanner_none (hnone : s.paint.banner = none) : expireBanner s = s := by
  unfold expireBanner
  rw [hnone]

end

theorem removeBanner_results (s : State) : (removeBanner s).results = s.results :=
  removeBanner_touches s .results (by decide)

theorem expireBanner_results (s : State) : (expireBanner s).results = s.results := by
  unfold expireBanner
  split
  · split
    · exact removeBanner_results s
    · rfl
  · rfl

/-- Settles O48, by the event and by whether a banner is set. -/
theorem bannerRemoved : Obligations.BannerRemoved := by
  rintro h s c (rfl | rfl) hlisten hrun
  · refine ⟨_, congrArg Host.Outcome.next (feedEvent_of_listening (hlisten rfl) _), fun _ => ?_, nofun, fun hnone => ?_,
      fun b hbanner _ => ?_⟩
    · cases hbanner : s.paint.banner with
      | none =>
        rw [acceptClearBanner_none hbanner]
        exact answered_settle _ _ _ _ s
      | some b =>
        rw [acceptClearBanner_some hbanner]
        exact (answered_congr (removeBanner_results s).symm rfl).1 (answered_settle _ _ _ _ (removeBanner s))
    · rw [acceptClearBanner_none hnone]
      exact answer_framed _ _ _ _ s
    · rw [acceptClearBanner_some hbanner]
      exact bannerGone_settle (by simp [hbanner]) (answer_sameBut _ _ _ _ _)
  · refine ⟨_, congrArg Host.Outcome.next (event_of_running hrun _), nofun, fun _ => ?_, fun hnone => ?_,
      fun b hbanner hends => ?_⟩
    · exact (settle_results _).trans (expireBanner_results s)
    · rw [expireBanner_none hnone]
      exact framedAtRest_settle (.refl _ s) (by simp [asideParts])
    · rw [expireBanner_some hbanner (hends.resolve_left nofun)]
      exact bannerGone_settle (by simp [hbanner]) (.refl _ _)

end Sys2Proof.Machine

/-! O55. The refresh and the end of its shift: the frame promoted line by line, the pixels of the chain's blocks by row and
column, and the latch. -/

namespace Sys2Proof.Machine

/-! ### Lists laid end to end -/

/-- Where every piece has the same length, a position is the piece's number and the place within it. -/
theorem getElem?_flatMap_of_length {α β : Type} {f : α → List β} {width : Nat} (hwidth : ∀ a, (f a).length = width)
    (l : List α) (row : Nat) {column : Nat} (hcolumn : column < width) :
    (l.flatMap f)[width * row + column]? = l[row]?.bind fun a => (f a)[column]? := by
  induction l generalizing row with
  | nil => rfl
  | cons a l ih =>
    rw [List.flatMap_cons]
    cases row with
    | zero => simp [List.getElem?_append_left, hwidth, hcolumn]
    | succ row =>
      have hpast : width * (row + 1) + column = width + (width * row + column) := by ring
      rw [hpast, List.getElem?_append_right (by rw [hwidth]; omega), hwidth, Nat.add_sub_cancel_left, ih row]
      rfl

/-! ### The pixels of a module -/

/-- A board's width is a whole number of modules (R96). -/
theorem boardWidth_eq (code : Nat) : boardWidth code = 32 * modulesAcross code := by
  unfold modulesAcross boardWidth
  split <;> rfl

theorem modulesAcross_pos (code : Nat) : 0 < modulesAcross code := by
  unfold modulesAcross boardWidth
  split <;> decide

/-- A module's columns lie within its line (R151). -/
theorem moduleColumn_lt (code k : Nat) {column : Nat} (hcolumn : column < 32) :
    32 * (k % modulesAcross code) + column < boardWidth code := by
  have hmodule : k % modulesAcross code < modulesAcross code := Nat.mod_lt _ (modulesAcross_pos code)
  rw [boardWidth_eq]
  omega

/-- Pixel `column` of row `row` of chain module `k`, in its line's image (R151). -/
theorem moduleBlock_getElem? {code k row column : Nat} {shown : List (List Column)} {image : List Column}
    (hshown : shown[k / modulesAcross code]? = some image) (hlength : image.length = boardWidth code)
    (hrow : row < 16) (hcolumn : column < 32) :
    (moduleBlock code shown k)[32 * row + column]? =
      image[32 * (k % modulesAcross code) + column]?.map fun pixels => pixels.getLsbD row := by
  have hlast : 32 * (k % modulesAcross code) + 31 < boardWidth code := moduleColumn_lt code k (by omega)
  have hwidth : ((image.drop (32 * (k % modulesAcross code))).take 32).length = 32 := by
    rw [List.length_take, List.length_drop]
    omega
  unfold moduleBlock
  rw [List.getD_eq_getElem?_getD, hshown, Option.getD_some,
    getElem?_flatMap_of_length (fun _ => (List.length_map _).trans hwidth) _ _ hcolumn, List.getElem?_range hrow,
    Option.bind_some, List.getElem?_map, List.getElem?_take_of_lt hcolumn, List.getElem?_drop]

/-! ### The blocks of a frame -/

theorem shiftBlocks_length (code : Nat) (shown : List (List Column)) : (shiftBlocks code shown).length = moduleCount code := by
  simp [shiftBlocks]

/-- The last module of the chain is sent first (R151). -/
theorem shiftBlocks_getElem? {code k : Nat} (shown : List (List Column)) (hk : k < moduleCount code) :
    (shiftBlocks code shown)[moduleCount code - 1 - k]? = some (moduleBlock code shown k) := by
  have hplace : moduleCount code - 1 - (moduleCount code - 1 - k) = k := by omega
  have hlength : ((List.range (moduleCount code)).map (moduleBlock code shown)).length = moduleCount code := by simp
  unfold shiftBlocks
  rw [List.getElem?_reverse (by omega), hlength, hplace, List.getElem?_map, List.getElem?_range hk, Option.map_some]

/-- Each block of the shift carries its module's pixels, row by row (R151). -/
theorem shiftBlocks_pixel {code k row column : Nat} {shown : List (List Column)} {image : List Column}
    (hk : k < moduleCount code) (hrow : row < 16) (hcolumn : column < 32)
    (hshown : shown[k / modulesAcross code]? = some image) (hlength : image.length = boardWidth code) :
    ∃ block pixels, (shiftBlocks code shown)[moduleCount code - 1 - k]? = some block ∧
      image[32 * (k % modulesAcross code) + column]? = some pixels ∧
      block[32 * row + column]? = some (pixels.getLsbD row) := by
  have hinside : 32 * (k % modulesAcross code) + column < image.length := hlength ▸ moduleColumn_lt code k hcolumn
  refine ⟨_, _, shiftBlocks_getElem? shown hk, List.getElem?_eq_getElem hinside, ?_⟩
  rw [moduleBlock_getElem? hshown hlength hrow hcolumn, List.getElem?_eq_getElem hinside, Option.map_some]

/-! ### The two events of the Frame Store -/

/-- A line shows its pending image after a refresh, or goes on as it was where none is pending (R150). -/
theorem refreshFrame_shown_getElem? {s : State} {n : Nat} {old : List Column} {p : Option (List Column)}
    (hold : s.frame.shown[n]? = some old) (hpending : s.frame.pending[n]? = some p) :
    (refreshFrame s).frame.shown[n]? = some (p.getD old) :=
  List.getElem?_zipWith_eq_some.2 ⟨old, p, hold, hpending, rfl⟩

theorem refreshFrame_shown_length {s : State} (h : s.frame.shown.length = s.frame.pending.length) :
    (refreshFrame s).frame.shown.length = s.frame.shown.length :=
  List.length_zipWith.trans (h ▸ Nat.min_self _)

theorem refreshFrame_pending_none {s : State} : ∀ p ∈ (refreshFrame s).frame.pending, p = none := fun _ hp =>
  let ⟨_, _, hnone⟩ := List.mem_map.1 hp
  hnone.symm

/-- The shift a refresh begins: the blocks of the frame then shown, and the board state as read (R151, R152). -/
def startedShift (s : State) : Shift where
  blocks := shiftBlocks s.geometry (refreshFrame s).frame.shown
  dark := decide (s.board = .dark)
  remaining := shiftTime s.geometry

theorem refreshFrame_shift (s : State) : (refreshFrame s).frame.shift = some (startedShift s) := rfl

theorem startedShift_remaining (s : State) : (startedShift s).remaining = (moduleCount s.geometry : Int) * 512 * 80 := by
  simp [startedShift, shiftTime]

theorem latchShift_of_none {s : State} (h : s.frame.shift = none) : latchShift s = s := by
  unfold latchShift
  rw [h]

theorem latchShift_of_some {s : State} {sh : Shift} (h : s.frame.shift = some sh) :
    latchShift s = s.withFrame { s.frame with shift := none, panels := sh.blocks.reverse, blank := sh.dark } := by
  unfold latchShift
  rw [h]

/-- Settles O55: the refresh line by line and pixel by pixel, then the shift's end by whether a shift is in progress. -/
theorem refreshAndShift : Obligations.RefreshAndShift := by
  refine ⟨fun s hrun hshown hpending => ⟨_, startedShift s, congrArg Host.Outcome.next (event_of_running hrun _),
    framedAtRest_settle (refreshFrame_sameBut s) (by decide), ?_⟩,
    fun s hrun => ⟨_, congrArg Host.Outcome.next (event_of_running hrun _),
    framedAtRest_settle (latchShift_sameBut s) (by decide), ?_⟩⟩
  · rw [settle_frame]
    exact ⟨fun _ _ _ => refreshFrame_shown_getElem?, refreshFrame_shown_length (hshown.trans hpending.symm),
      refreshFrame_pending_none, List.length_map _, rfl, rfl, rfl, refreshFrame_shift s, decide_eq_true_iff,
      startedShift_remaining s, shiftBlocks_length _ _, fun _ _ _ _ hk hrow hcolumn => shiftBlocks_pixel hk hrow hcolumn⟩
  · rw [settle_frame]
    exact ⟨fun hnone => congrArg State.frame (latchShift_of_none hnone),
      fun sh hsome => congrArg State.frame (latchShift_of_some hsome)⟩

end Sys2Proof.Machine

/-! SUPPORT for O31 to O34. The Feed Receiver takes an octet: what a delivered octet comes to, and the receiver's case by case. -/

namespace Sys2Proof.Machine

/-! ### A delivered octet -/

/-- The part once its Feed Receiver has taken an octet since its release (R161). -/
def begun (s : State) : State := s.withFeed { s.feed with started := true }

theorem begun_of_started {s : State} (h : s.feed.started = true) : begun s = s := by
  have hfeed : ({ s.feed with started := true } : FeedReceiver) = s.feed := by rw [← h]
  exact congrArg s.withFeed hfeed

/-- Both commands that deliver an octet hand it to the receiver, which has then begun (R161, R163). -/
theorem exec_of_delivers {c : Instr} {o : Octet} {s : State} (hl : Listening s) (hd : Delivers c o s) :
    exec c s = .next (settle (receiveOctet o (begun s))) := by
  rcases hd with rfl | ⟨rfl, hstarted, rfl⟩
  · exact congrArg Host.Outcome.next (feedEvent_of_listening hl _)
  · have hmiss : missOctet s = receiveOctet missing s := if_pos hstarted
    rw [begun_of_started hstarted]
    exact congrArg Host.Outcome.next ((feedEvent_of_listening hl _).trans (congrArg settle hmiss))

/-- An event that changes the Feed Receiver alone, taken whole. -/
theorem settle_receiver {s u : State} {f : FeedReceiver} (h : u = (begun s).withFeed f) :
    FramedAtRest [.feed] s (settle u) ∧ (settle u).feed = f := by
  have hwhole : u = s.withFeed f := h
  rw [hwhole]
  exact ⟨framedAtRest_settle (withFeed_sameBut f s) (by decide), settle_feed _⟩

theorem holdsGood_iff {o : Octet} {v : Byte} : holdsGood o v = true ↔ GoodOctet o v := by
  unfold holdsGood GoodOctet
  rw [Bool.and_eq_true, decide_eq_true_iff, Bool.not_eq_true']

/-! ### The receiver's cases -/

theorem receiveOctet_growing {o : Octet} {s : State} {span : List Octet} (h : s.feed.alignment = .hunting span)
    (hlen : span.length < 63) : receiveOctet o s = withAlignment (.hunting (span ++ [o])) s := by
  unfold receiveOctet
  rw [h]
  exact if_pos (by rw [List.length_append, List.length_singleton]; omega)

theorem receiveOctet_judging {o : Octet} {s : State} {span : List Octet} (h : s.feed.alignment = .hunting span)
    (hlen : 63 ≤ span.length) :
    receiveOctet o s = withAlignment (judgeSpan s.settings.mimicCheck (span ++ [o])) s := by
  unfold receiveOctet
  rw [h]
  exact if_neg (by rw [List.length_append, List.length_singleton]; omega)

theorem receiveOctet_waiting {o : Octet} {s : State} {skip : Nat} {pattern : Byte}
    (h : s.feed.alignment = .confirming (skip + 1) pattern) :
    receiveOctet o s = withAlignment (.confirming skip pattern) s := by
  unfold receiveOctet
  rw [h]

theorem receiveOctet_candidate {o : Octet} {s : State} {pattern : Byte} (h : s.feed.alignment = .confirming 0 pattern) :
    receiveOctet o s = judgeCandidate o pattern s := by
  unfold receiveOctet
  rw [h]

theorem receiveOctet_pattern {o : Octet} {s : State} {even : Bool} {marks : List Bool}
    (h : s.feed.alignment = .aligned 0 even marks) : receiveOctet o s = judgeAlignment o even marks s := by
  unfold receiveOctet
  rw [h]
  rfl

theorem receiveOctet_overhead {o : Octet} {s : State} {even : Bool} {marks : List Bool}
    (h : s.feed.alignment = .aligned 1 even marks) :
    receiveOctet o s = overheadOctet o even (withAlignment (.aligned 2 even marks) s) := by
  unfold receiveOctet
  rw [h]
  rfl

theorem receiveOctet_payload {o : Octet} {s : State} {k : Nat} {even : Bool} {marks : List Bool}
    (h : s.feed.alignment = .aligned k even marks) (hk : 2 ≤ k) :
    receiveOctet o s = payloadOctet o (withAlignment (afterOctet k even marks) s) := by
  unfold receiveOctet
  rw [h]
  exact (if_neg (by omega)).trans (if_neg (by omega))

end Sys2Proof.Machine

/-! O31. The span judged at its last octet, and the candidate that confirms the alignment or is dropped. -/

namespace Sys2Proof.Machine

theorem spanQualifies_iff {span : List Octet} {p : Nat} : SpanQualifies span p ↔ p < 32 ∧ qualifies span p = true := by
  unfold SpanQualifies qualifies
  refine and_congr_right fun _ => ?_
  cases ha : span[p]? with
  | none => simp
  | some x =>
    cases hb : span[p + 32]? with
    | none => simp
    | some y =>
      simp only [Option.some.injEq, BitVec.ofNat_eq_ofNat, exists_and_left, ↓existsAndEq, true_and, exists_eq_left',
        Bool.and_eq_true, Bool.not_eq_eq_eq_not, Bool.not_true, Bool.or_eq_true, decide_eq_true_eq, and_assoc,
        and_congr_right_iff]
      exact fun _ _ => Iff.rfl

theorem mem_qualifying {span : List Octet} {p : Nat} :
    p ∈ (List.range 32).filter (qualifies span) ↔ SpanQualifies span p := by
  rw [List.mem_filter, List.mem_range, spanQualifies_iff]

/-- The positions that qualify are listed in rising order. -/
theorem qualifying_sorted (span : List Octet) : ((List.range 32).filter (qualifies span)).Pairwise (· < ·) :=
  List.pairwise_lt_range.filter _

/-- What a span yields is what R164 says of its qualifying positions: the one, or without the mimic check the lowest. -/
theorem spanPosition_eq_some_iff {mimic : Bool} {span : List Octet} {p : Nat} :
    spanPosition mimic span = some p ↔ SpanYields mimic span p := by
  have hmem := fun q => @mem_qualifying span q
  have hsorted := qualifying_sorted span
  unfold spanPosition SpanYields
  simp only [← hmem]
  cases hl : (List.range 32).filter (qualifies span) with
  | nil => simp
  | cons x rest =>
    rw [hl, List.pairwise_cons] at hsorted
    obtain ⟨hleast, -⟩ := hsorted
    cases rest with
    | nil => simp +contextual [eq_comm]
    | cons y rest =>
      have hxy : x < y := hleast y (by simp)
      cases mimic with
      | true =>
        refine ⟨nofun, fun ⟨_, _, honly⟩ => ?_⟩
        have hx := honly rfl x (by simp)
        have hy := honly rfl y (by simp)
        omega
      | false =>
        refine ⟨fun hp => ?_, fun ⟨hp, hlow, _⟩ => ?_⟩
        · cases hp
          exact ⟨by simp, fun q hq => (List.mem_cons.1 hq).elim ge_of_eq fun hin => (hleast q hin).le, nofun⟩
        · have hpx : p ≤ x := hlow x (by simp)
          have hxp : x ≤ p := (List.mem_cons.1 hp).elim ge_of_eq fun hin => (hleast p hin).le
          exact congrArg some (Nat.le_antisymm hxp hpx)

theorem judgeSpan_yields {mimic : Bool} {span : List Octet} {p : Nat} {o : Octet} (h : SpanYields mimic span p)
    (ho : span[p]? = some o) : judgeSpan mimic span = .confirming p o.data := by
  unfold judgeSpan
  rw [spanPosition_eq_some_iff.2 h]
  dsimp only
  rw [ho]

theorem judgeSpan_none {mimic : Bool} {span : List Octet} (h : ∀ p, ¬ SpanYields mimic span p) :
    judgeSpan mimic span = .hunting [] := by
  have hnone : spanPosition mimic span = none :=
    Option.eq_none_iff_forall_ne_some.2 fun p hp => h p (spanPosition_eq_some_iff.1 hp)
  unfold judgeSpan
  rw [hnone]

theorem judgeCandidate_good {o : Octet} {pattern : Byte} (s : State) (h : GoodOctet o pattern) :
    judgeCandidate o pattern s = s.withFeed { s.feed with
      alignment := .aligned 1 (decide (pattern = 0x1B)) [], position := none, sighting := none, gathered := [] } := by
  obtain ⟨hdata, -⟩ := id h
  unfold judgeCandidate
  rw [if_pos (holdsGood_iff.2 h), hdata]
  rfl

theorem judgeCandidate_bad {o : Octet} {pattern : Byte} (s : State) (h : ¬ GoodOctet o pattern) :
    judgeCandidate o pattern s = withAlignment (.hunting []) s :=
  if_neg fun hgood => h (holdsGood_iff.1 hgood)

/-- Settles O31, by the alignment in which the octet finds the receiver. -/
theorem alignmentSought : Obligations.AlignmentSought := by
  intro c o s hl hd
  refine ⟨_, exec_of_delivers hl hd, fun span h => ?_, fun skip pattern h => ?_, fun pattern h => ?_⟩
  · have hbegun : (begun s).feed.alignment = .hunting span := h
    rcases Nat.lt_or_ge span.length 63 with hlen | hlen
    · obtain ⟨hframe, hfeed⟩ := settle_receiver (receiveOctet_growing (o := o) hbegun hlen)
      exact ⟨hframe, fun _ => hfeed, fun hlong => absurd hlen (Nat.not_lt.2 hlong)⟩
    · obtain ⟨hframe, hfeed⟩ := settle_receiver (receiveOctet_judging (o := o) hbegun hlen)
      refine ⟨hframe, fun hshort => absurd hlen (Nat.not_le.2 hshort), fun _ => ⟨fun p x hyields hx => ?_, fun hnone => ?_⟩⟩
      · rw [hfeed, ← judgeSpan_yields hyields hx]
        rfl
      · rw [hfeed, ← judgeSpan_none hnone]
        rfl
  · have hbegun : (begun s).feed.alignment = .confirming (skip + 1) pattern := h
    exact settle_receiver (receiveOctet_waiting (o := o) hbegun)
  · have hbegun : (begun s).feed.alignment = .confirming 0 pattern := h
    rw [receiveOctet_candidate hbegun]
    by_cases hgood : GoodOctet o pattern
    · obtain ⟨hframe, hfeed⟩ := settle_receiver (judgeCandidate_good (begun s) hgood)
      exact ⟨hframe, fun _ => ⟨_, decide_eq_true_iff, hfeed⟩, fun hbad => absurd hgood hbad⟩
    · obtain ⟨hframe, hfeed⟩ := settle_receiver (judgeCandidate_bad (begun s) hgood)
      exact ⟨hframe, fun h => absurd h hgood, fun _ => hfeed⟩

end Sys2Proof.Machine

/-! O32. The alignment octet of a frame: its mark kept, or the alignment lost with all that rests on it. -/

namespace Sys2Proof.Machine

theorem count_true_eq (l : List Bool) : (l.filter id).length = l.count true := by
  rw [List.count, List.countP_eq_length_filter]
  congr 1
  exact List.filter_congr fun b _ => by cases b <;> rfl

/-- The marks once an alignment octet is judged are those of any mark that is clear exactly for a good octet (R166). -/
theorem judgeAlignment_marks {o : Octet} {even : Bool} {marks seen : List Bool} (s : State)
    (h : ∃ mark, seen = (mark :: marks).take 6 ∧ (mark = false ↔ GoodOctet o (framePattern even))) :
    judgeAlignment o even marks s = if (seen.take s.settings.alignWindow).count true < 2 then
      withAlignment (.aligned 1 even seen) s else loseAlignment s := by
  obtain ⟨mark, rfl, hmark⟩ := h
  have hnot : mark = !holdsGood o (patternOf even) := by
    have hiff : mark = false ↔ holdsGood o (patternOf even) = true := hmark.trans holdsGood_iff.symm
    cases mark <;> simp_all
  unfold judgeAlignment
  rw [hnot, ← count_true_eq]

/-- A loss of alignment: the receiver hunts anew, and a message being reassembled counts bad (R166, R176). -/
theorem loseAlignment_eq (s : State) : loseAlignment s = (s.withFeed { s.feed with
    alignment := .hunting [], position := none, sighting := none, gathered := [], candidate := none
    lossCount := min (s.feed.lossCount + 1) 65535 }).withUnpacker
      (if s.unpacker.state = .searching then s.unpacker else badMessage s.unpacker) := by
  unfold loseAlignment breakStream
  rw [State.withFeed_unpacker]
  cases s.unpacker.state <;> rfl

theorem withUnpacker_sameBut (v : Unpacker) (s : State) : SameBut [.unpacker] s (s.withUnpacker v) := by
  intro p hp
  cases p <;> simp_all [Part.same]

/-- Settles O32, by whether the window holds two errors. -/
theorem alignmentKeptOrLost : Obligations.AlignmentKeptOrLost := by
  refine ⟨fun s hl hstarted => ?_, fun c o s even marks seen hl hd h hseen => ?_⟩
  · have hmiss : missOctet s = s := if_neg (by simp [hstarted])
    exact ⟨_, congrArg Host.Outcome.next ((feedEvent_of_listening hl _).trans (congrArg settle hmiss)),
      framedAtRest_settle (.refl _ s) (by decide)⟩
  · have hbegun : (begun s).feed.alignment = .aligned 0 even marks := h
    refine ⟨_, exec_of_delivers hl hd, ?_⟩
    rw [receiveOctet_pattern hbegun, judgeAlignment_marks (begun s) hseen]
    refine ⟨fun hkept => ?_, fun hlost => ?_⟩
    · have hwindow : ((seen.take (begun s).settings.alignWindow).count true < 2) := hkept
      rw [if_pos hwindow]
      obtain ⟨hframe, hfeed⟩ := settle_receiver (s := s) (u := withAlignment (.aligned 1 even seen) (begun s)) rfl
      exact ⟨hfeed, hframe⟩
    · have hwindow : ¬ ((seen.take (begun s).settings.alignWindow).count true < 2) := Nat.not_lt.2 hlost
      rw [if_neg hwindow, loseAlignment_eq, settle_feed, settle_unpacker]
      exact ⟨rfl, fun hidle => if_pos hidle, fun hbusy => if_neg hbusy,
        framedAtRest_settle ((withFeed_sameBut _ s).trans (withUnpacker_sameBut _ _)) (by decide)⟩

end Sys2Proof.Machine

/-! O33. The overhead octet of a frame: the superframe sought, followed and lost, and its five octets handed over. -/

namespace Sys2Proof.Machine

theorem overheadOctet_unknown {o : Octet} {even : Bool} {s : State} (h : s.feed.position = none) :
    overheadOctet o even s = s.withFeed (seekMarker o even s.feed) := by
  unfold overheadOctet
  rw [h]

/-- The octet that ought to be a marker keeps the position, or loses it (R168). -/
theorem overheadOctet_marker {o : Octet} {even : Bool} {s : State} (h : s.feed.position = some 5) :
    overheadOctet o even s = if holdsGood o 0xA5 then s.withFeed { s.feed with position := some 0, gathered := [] }
      else s.withFeed { s.feed with position := none, sighting := none, gathered := [], candidate := none } := by
  unfold overheadOctet
  rw [h]
  rfl

/-- The octets between the markers are gathered, and the fifth is handed over with the four before it (R168). -/
theorem overheadOctet_gathered {o : Octet} {even : Bool} {s : State} {p : Nat} (h : s.feed.position = some p) (hp : p ≠ 5) :
    overheadOctet o even s =
      if p = 4 then judgeGathered (s.feed.gathered ++ [o])
        (s.withFeed { s.feed with position := some (p + 1), gathered := s.feed.gathered ++ [o] })
      else s.withFeed { s.feed with position := some (p + 1), gathered := s.feed.gathered ++ [o] } := by
  unfold overheadOctet
  rw [h]
  dsimp only
  rw [if_neg hp]
  simp only [Nat.reduceEqDiff]

/-- A marker six frames after the one remembered takes the position (R168). -/
theorem seekMarker_second {o : Octet} {even : Bool} {f : FeedReceiver} (h : even = true) (ho : GoodOctet o 0xA5)
    (hs : f.sighting = some 5) : seekMarker o even f = { f with position := some 0, sighting := none, gathered := [] } := by
  have hmarker : (even && holdsGood o superframeMarker) = true := by rw [h]; exact holdsGood_iff.2 ho
  unfold seekMarker
  rw [hs, if_pos hmarker]
  rfl

/-- A marker at any other distance is remembered in place of the former (R168). -/
theorem seekMarker_first {o : Octet} {even : Bool} {f : FeedReceiver} (h : even = true) (ho : GoodOctet o 0xA5)
    (hs : f.sighting ≠ some 5) : seekMarker o even f = { f with sighting := some 0 } := by
  have hage : f.sighting.map (· + 1) ≠ some 6 := by
    cases hf : f.sighting with
    | none => simp
    | some n => simpa [hf] using hs
  have hmarker : (even && holdsGood o superframeMarker) = true := by rw [h]; exact holdsGood_iff.2 ho
  exact (if_pos hmarker).trans (if_neg hage)

theorem seekMarker_other {o : Octet} {even : Bool} {f : FeedReceiver} (h : ¬ (even = true ∧ GoodOctet o 0xA5)) :
    seekMarker o even f = { f with sighting := f.sighting.map (· + 1) } :=
  if_neg fun hmarker => h (((Bool.and_eq_true _ _).mp hmarker).imp_right holdsGood_iff.1)

theorem Listening.withFeed {s : State} {f : FeedReceiver} (h : Listening s) (hf : f.held = s.feed.held) :
    Listening (s.withFeed f) := by
  obtain ⟨hrunning, hheld⟩ := h
  exact ⟨hrunning, hf.trans hheld⟩

theorem exec_overheadRecord (o1 o2 o3 o4 o5 : Octet) {s : State} (h : Listening s) :
    exec (.overheadRecord o1 o2 o3 o4 o5) s = .next (settle (judgeRecord o1 o2 o3 o4 o5 s)) :=
  congrArg Host.Outcome.next (feedEvent_of_listening h _)

/-- Settles O33, by the superframe position before the octet. -/
theorem superframeFollowed : Obligations.SuperframeFollowed := by
  intro c o s even marks hl hd h
  have hbegun : (begun s).feed.alignment = .aligned 1 even marks := h
  have hexec := exec_of_delivers hl hd
  rw [receiveOctet_overhead hbegun] at hexec
  generalize hu : withAlignment (.aligned 2 even marks) (begun s) = u at hexec
  have hfeed : u.feed = { s.feed with started := true, alignment := .aligned 2 even marks } := hu ▸ rfl
  have hwith (f : FeedReceiver) : u.withFeed f = (begun s).withFeed f := hu ▸ rfl
  refine ⟨_, hexec, fun hpos => ?_, fun hpos => ?_, fun p hpos hp => ?_, fun o1 o2 o3 o4 hpos hgathered => ?_⟩
  · rw [overheadOctet_unknown (by rw [hfeed]; exact hpos), hwith, hfeed]
    obtain ⟨hframe, hseek⟩ := settle_receiver (rfl : (begun s).withFeed (seekMarker o even _) = _)
    refine ⟨hframe, fun he ho hs => ?_, fun he ho hs => ?_, fun hno => ?_⟩
    · exact hseek.trans (seekMarker_second he ho hs)
    · exact hseek.trans (seekMarker_first he ho hs)
    · exact hseek.trans (seekMarker_other hno)
  · rw [overheadOctet_marker (by rw [hfeed]; exact hpos), hwith, hwith, hfeed]
    by_cases ho : GoodOctet o 0xA5
    · rw [if_pos (holdsGood_iff.2 ho)]
      obtain ⟨hframe, hkept⟩ := settle_receiver (s := s) rfl
      exact ⟨hframe, fun _ => hkept, fun hno => absurd ho hno⟩
    · rw [if_neg fun hgood => ho (holdsGood_iff.1 hgood)]
      obtain ⟨hframe, hlost⟩ := settle_receiver (s := s) rfl
      exact ⟨hframe, fun hyes => absurd hyes ho, fun _ => hlost⟩
  · rw [overheadOctet_gathered (by rw [hfeed]; exact hpos) (by omega), if_neg (by omega), hwith, hfeed]
    exact settle_receiver rfl
  · rw [hexec, overheadOctet_gathered (by rw [hfeed]; exact hpos) (by decide), if_pos rfl, hwith, hfeed, hgathered,
      exec_overheadRecord]
    · rfl
    · exact hl.withFeed rfl

end Sys2Proof.Machine

/-! SUPPORT for O34. No message reads the alignment, and none changes it: every acceptance, and the arbiter's decision after it, does
with another alignment what it does with the one that stands. A lemma that takes an equation of states stands in a chain of
operations. -/

namespace Sys2Proof.Machine

/-! ### The alignment alone changed -/

@[simp] theorem withAlignment_settings (a : Alignment) (s : State) : (withAlignment a s).settings = s.settings := rfl
@[simp] theorem withAlignment_table (a : Alignment) (s : State) : (withAlignment a s).table = s.table := rfl
@[simp] theorem withAlignment_dir (a : Alignment) (s : State) : (withAlignment a s).dir = s.dir := rfl
@[simp] theorem withAlignment_paint (a : Alignment) (s : State) : (withAlignment a s).paint = s.paint := rfl

/-- A choice whose condition does not read the alignment. -/
theorem withAlignment_ite {p q : Prop} [Decidable p] [Decidable q] {a : Alignment} {t u t' u' : State} (h : p ↔ q)
    (ht : t' = withAlignment a t) (hu : u' = withAlignment a u) :
    (if p then t' else u') = withAlignment a (if q then t else u) := by
  by_cases hp : p
  · rw [if_pos hp, if_pos (h.1 hp), ht]
  · rw [if_neg hp, if_neg (fun hq => hp (h.2 hq)), hu]

theorem enqueue_withAlignment (e : Entry) (a : Alignment) (s : State) :
    enqueue e (withAlignment a s) = withAlignment a (enqueue e s) :=
  withAlignment_ite Iff.rfl rfl rfl

/-- An answer whose detail does not read the alignment. -/
theorem answer_withAlignment {kind : Byte} {h : Header} {o d d' : Nat} {a : Alignment} {t t' : State}
    (ht : t' = withAlignment a t) (hd : d' = d := by rfl) :
    answer kind h o d' t' = withAlignment a (answer kind h o d t) := by
  rw [ht, hd]
  exact withAlignment_ite Iff.rfl (enqueue_withAlignment _ a t) rfl

theorem answerRead_withAlignment (kind : Byte) (h : Header) (o d : Nat) (a : Alignment) (s : State) :
    answerRead kind h o d (withAlignment a s) = withAlignment a (answerRead kind h o d s) := enqueue_withAlignment _ a s

theorem answerAll_withAlignment (kind : Byte) (hs : List Header) (o d : Nat) (a : Alignment) (s : State) :
    answerAll kind hs o d (withAlignment a s) = withAlignment a (answerAll kind hs o d s) := by
  induction hs generalizing s with
  | nil => rfl
  | cons h rest ih =>
    have hhead : answer kind h o d (withAlignment a s) = _ := answer_withAlignment rfl
    exact (congrArg (answerAll kind rest o d) hhead).trans (ih _)

theorem enqueueRead_withAlignment (tag : Byte) (object : ReadObject) (a : Alignment) (s : State) :
    enqueueRead tag object (withAlignment a s) = withAlignment a (enqueueRead tag object s) :=
  withAlignment_ite Iff.rfl rfl (enqueue_withAlignment _ a s)

/-! ### The Service Table -/

theorem sweep_withAlignment (a : Alignment) (s : State) : sweep (withAlignment a s) = withAlignment a (sweep s) := rfl

theorem touchWindow_withAlignment (a : Alignment) (s : State) :
    touchWindow (withAlignment a s) = withAlignment a (touchWindow s) := by
  refine withAlignment_ite Iff.rfl rfl ?_
  rw [withAlignment_table]
  cases s.table.window <;> rfl

theorem sweepAtZero_withAlignment {left : Bool} {a : Alignment} {t t' : State} (ht : t' = withAlignment a t) :
    sweepAtZero left t' = withAlignment a (sweepAtZero left t) := by
  rw [ht]
  exact withAlignment_ite Iff.rfl rfl rfl

theorem retireRecord_withAlignment (key : Nat) (a : Alignment) (s : State) :
    retireRecord key (withAlignment a s) = withAlignment a (retireRecord key s) := by
  unfold retireRecord
  rw [touchWindow_withAlignment]
  exact sweepAtZero_withAlignment rfl

theorem postCreate_withAlignment (h : Header) (f : PostFields) (a : Alignment) (s : State) :
    postCreate h f (withAlignment a s) = withAlignment a (postCreate h f s) := by
  unfold postCreate
  dsimp only
  rw [withAlignment_table, sweep_withAlignment, withAlignment_table]
  cases insertRecord (postRecord f) s.table.slots with
  | some slots => exact answer_withAlignment rfl
  | none =>
    cases s.table.window with
    | closed => exact answer_withAlignment rfl
    | opened expiry cap =>
      cases insertRecord (postRecord f) (sweep s).table.slots with
      | some slots => exact answer_withAlignment rfl
      | none => exact answer_withAlignment rfl

theorem acceptPost_withAlignment (h : Header) (f : PostFields) (a : Alignment) (s : State) :
    acceptPost h f (withAlignment a s) = withAlignment a (acceptPost h f s) := by
  refine withAlignment_ite Iff.rfl ?_ (answer_withAlignment rfl)
  dsimp only
  rw [withAlignment_table, withAlignment_dir]
  cases findRecord f.key s.table.slots with
  | none =>
    cases firstBadPlace s.dir (namedPlaces f.destination f.via f.stops) with
    | none => exact postCreate_withAlignment h f a s
    | some bad => exact answer_withAlignment rfl
  | some old =>
    dsimp only
    cases judgeRevision f.revision old.revision with
    | duplicate | stale => exact answer_withAlignment rfl
    | newer =>
      cases firstBadPlace s.dir (namedPlaces f.destination f.via f.stops) with
      | none => exact answer_withAlignment rfl
      | some bad => exact answer_withAlignment rfl

theorem acceptAmend_withAlignment (h : Header) (f : AmendFields) (a : Alignment) (s : State) :
    acceptAmend h f (withAlignment a s) = withAlignment a (acceptAmend h f s) := by
  refine withAlignment_ite Iff.rfl ?_ (answer_withAlignment rfl)
  rw [withAlignment_table]
  cases findRecord f.key s.table.slots with
  | none => exact answer_withAlignment rfl
  | some r =>
    dsimp only
    cases r.life with
    | leaving cause => exact answer_withAlignment rfl
    | live =>
      dsimp only
      cases judgeRevision f.revision r.revision with
      | duplicate | stale => exact answer_withAlignment rfl
      | newer => exact withAlignment_ite Iff.rfl (answer_withAlignment rfl) (answer_withAlignment rfl)

theorem acceptRetire_withAlignment (h : Header) (key : Nat) (a : Alignment) (s : State) :
    acceptRetire h key (withAlignment a s) = withAlignment a (acceptRetire h key s) := by
  refine withAlignment_ite Iff.rfl ?_ (answer_withAlignment rfl)
  rw [withAlignment_table]
  cases findRecord key s.table.slots with
  | none => exact answer_withAlignment rfl
  | some r =>
    dsimp only
    cases r.isLive with
    | true =>
      rw [retireRecord_withAlignment]
      exact answer_withAlignment rfl
    | false => exact answer_withAlignment rfl

theorem acceptClear_withAlignment (h : Header) (a : Alignment) (s : State) :
    acceptClear h (withAlignment a s) = withAlignment a (acceptClear h s) := answer_withAlignment rfl

/-! ### The Place Directory -/

theorem tryWrite_withAlignment (h : Header) (f : WriteFields) (op : DirOp) (a : Alignment) (s : State) :
    tryWrite h f op (withAlignment a s) = withAlignment a (tryWrite h f op s) :=
  withAlignment_ite Iff.rfl (answer_withAlignment rfl)
    (withAlignment_ite Iff.rfl (answer_withAlignment rfl) rfl)

theorem abandonGather_withAlignment (a : Alignment) (s : State) :
    abandonGather (withAlignment a s) = withAlignment a (abandonGather s) := by
  unfold abandonGather
  rw [withAlignment_dir]
  cases s.dir.op with
  | gathering e window => exact answerAll_withAlignment _ _ _ _ a (withOp .ready s)
  | _ => rfl

theorem acceptWrite_withAlignment (h : Header) (f : WriteFields) (a : Alignment) (s : State) :
    acceptWrite h f (withAlignment a s) = withAlignment a (acceptWrite h f s) := by
  refine withAlignment_ite Iff.rfl ?_ (answer_withAlignment rfl)
  rw [withAlignment_dir]
  cases s.dir.op with
  | ready => exact tryWrite_withAlignment h f _ a s
  | gathering e window =>
    rw [abandonGather_withAlignment]
    exact tryWrite_withAlignment h f _ a _
  | suspended e c cause =>
    exact withAlignment_ite Iff.rfl (answer_withAlignment rfl) (tryWrite_withAlignment h f _ a s)
  | _ => exact answer_withAlignment rfl

theorem joinErase_withAlignment (h : Header) (sector : Nat) (e : EraseJob) (window : Nat) (a : Alignment) (s : State) :
    joinErase h sector e window (withAlignment a s) = withAlignment a (joinErase h sector e window s) :=
  withAlignment_ite Iff.rfl (answer_withAlignment rfl) (withAlignment_ite Iff.rfl rfl rfl)

theorem tryErase_withAlignment (h : Header) (sector : Nat) (e : EraseJob) (window : Nat) (a : Alignment) (s : State) :
    tryErase h sector e window (withAlignment a s) = withAlignment a (tryErase h sector e window s) := by
  refine withAlignment_ite Iff.rfl (answer_withAlignment rfl) ?_
  rw [withAlignment_dir]
  cases lowestReferenced s.dir sector with
  | some place => exact answer_withAlignment rfl
  | none => exact joinErase_withAlignment h sector e window a s

theorem acceptErase_withAlignment (h : Header) (sector : Nat) (a : Alignment) (s : State) :
    acceptErase h sector (withAlignment a s) = withAlignment a (acceptErase h sector s) := by
  refine withAlignment_ite Iff.rfl ?_ (answer_withAlignment rfl)
  rw [withAlignment_dir]
  cases s.dir.op with
  | ready | gathering => exact tryErase_withAlignment h sector _ _ a s
  | _ => exact answer_withAlignment rfl

theorem acceptSuspend_withAlignment (h : Header) (a : Alignment) (s : State) :
    acceptSuspend h (withAlignment a s) = withAlignment a (acceptSuspend h s) := by
  unfold acceptSuspend
  rw [withAlignment_dir]
  cases s.dir.op with
  | erasing | suspending => rfl
  | _ => exact answer_withAlignment rfl

theorem enterErasing_withAlignment (e : EraseJob) (c : Current) (a : Alignment) (s : State) :
    enterErasing e c (withAlignment a s) = withAlignment a (enterErasing e c s) := withAlignment_ite Iff.rfl rfl rfl

theorem acceptResume_withAlignment (h : Header) (a : Alignment) (s : State) :
    acceptResume h (withAlignment a s) = withAlignment a (acceptResume h s) := by
  unfold acceptResume
  rw [withAlignment_dir]
  cases s.dir.op with
  | suspended e c cause =>
    cases cause with
    | commanded => exact answer_withAlignment (enterErasing_withAlignment e c a s)
    | paint => exact answer_withAlignment rfl
  | suspendedWriting e c cause w => cases cause <;> exact answer_withAlignment rfl
  | _ => exact answer_withAlignment rfl

theorem tryLock_withAlignment (kind : Byte) (h : Header) (target : List Nat) (a : Alignment) (s : State) :
    tryLock kind h target (withAlignment a s) = withAlignment a (tryLock kind h target s) := by
  unfold tryLock
  rw [withAlignment_dir, abandonGather_withAlignment]
  cases s.dir.op with
  | ready | gathering => rfl
  | _ => exact answer_withAlignment rfl

theorem acceptLock_withAlignment (h : Header) (sectors : Byte) (a : Alignment) (s : State) :
    acceptLock h sectors (withAlignment a s) = withAlignment a (acceptLock h sectors s) :=
  withAlignment_ite Iff.rfl (answer_withAlignment rfl) (tryLock_withAlignment _ _ _ a s)

theorem acceptFree_withAlignment (h : Header) (sectors : Byte) (a : Alignment) (s : State) :
    acceptFree h sectors (withAlignment a s) = withAlignment a (acceptFree h sectors s) :=
  withAlignment_ite Iff.rfl (answer_withAlignment rfl)
    (withAlignment_ite Iff.rfl (tryLock_withAlignment _ _ _ a s) (answer_withAlignment rfl))

/-! ### The Paint Engine and the board state -/

theorem revokeJob_withAlignment {a : Alignment} {t t' : State} (ht : t' = withAlignment a t) :
    revokeJob t' = withAlignment a (revokeJob t) := by
  have htarget (j : Job) : j.target (withAlignment a t) = j.target t := rfl
  unfold revokeJob
  rw [ht, withAlignment_paint]
  cases t.paint.job with
  | none => rfl
  | some j =>
    dsimp only
    rw [htarget]
    cases j.target t with
    | none => rfl
    | some target => exact withAlignment_ite Iff.rfl rfl rfl

theorem applyBoard_withAlignment (new : BoardState) (a : Alignment) (s : State) :
    applyBoard new (withAlignment a s) = withAlignment a (applyBoard new s) := by
  rw [applyBoard_eq, applyBoard_eq]
  exact revokeJob_withAlignment rfl

theorem selectBoard_withAlignment {a : Alignment} {t t' : State} (ht : t' = withAlignment a t) :
    selectBoard t' = withAlignment a (selectBoard t) := by
  rw [ht]
  exact withAlignment_ite Iff.rfl rfl (applyBoard_withAlignment _ a t)

theorem acceptHold_withAlignment (h : Header) (a : Alignment) (s : State) :
    acceptHold h (withAlignment a s) = withAlignment a (acceptHold h s) := answer_withAlignment rfl

theorem acceptRelease_withAlignment (h : Header) (a : Alignment) (s : State) :
    acceptRelease h (withAlignment a s) = withAlignment a (acceptRelease h s) := by
  rw [acceptRelease_eq, acceptRelease_eq]
  exact answer_withAlignment rfl

theorem acceptSetBanner_withAlignment (h : Header) (f : BannerFields) (a : Alignment) (s : State) :
    acceptSetBanner h f (withAlignment a s) = withAlignment a (acceptSetBanner h f s) :=
  withAlignment_ite Iff.rfl (answer_withAlignment (revokeJob_withAlignment (withAlignment_ite Iff.rfl rfl rfl)))
    (answer_withAlignment rfl)

theorem markLines_withAlignment {l : List Nat} {a : Alignment} {t t' : State} (ht : t' = withAlignment a t) :
    markLines l t' = withAlignment a (markLines l t) := ht ▸ rfl

theorem removeBanner_withAlignment (a : Alignment) (s : State) :
    removeBanner (withAlignment a s) = withAlignment a (removeBanner s) := by
  have hclock {t t' : State} {p q : Prop} [Decidable p] [Decidable q] (h : p ↔ q) (ht : t' = withAlignment a t) :
      (if p then raiseClock t' else t') = withAlignment a (if q then raiseClock t else t) :=
    withAlignment_ite h (ht ▸ rfl) ht
  exact revokeJob_withAlignment
    (withAlignment_ite Iff.rfl (markLines_withAlignment (hclock Iff.rfl rfl)) (hclock Iff.rfl rfl))

theorem acceptClearBanner_withAlignment (h : Header) (a : Alignment) (s : State) :
    acceptClearBanner h (withAlignment a s) = withAlignment a (acceptClearBanner h s) := by
  unfold acceptClearBanner
  rw [withAlignment_paint]
  cases s.paint.banner with
  | some banner => exact answer_withAlignment (removeBanner_withAlignment a s)
  | none => exact answer_withAlignment rfl

/-! ### SET BOARD and RESTART -/

theorem lapseFeed_withAlignment (a : Alignment) (s : State) :
    lapseFeed (withAlignment a s) = withAlignment a (lapseFeed s) := by
  cases h : s.time.freshness with
  | lapsed => rw [lapseFeed_lapsed h, lapseFeed_lapsed (s := withAlignment a s) h]
  | fresh =>
    rw [lapseFeed_fresh h, lapseFeed_fresh (s := withAlignment a s) h]
    exact selectBoard_withAlignment rfl

theorem directoryRaise_withAlignment {a : Alignment} {t t' : State} (ht : t' = withAlignment a t) :
    directoryRaise t' = withAlignment a (directoryRaise t) := by
  unfold directoryRaise
  rw [ht, withAlignment_dir]
  cases t.dir.op with
  | erasing e c => exact withAlignment_ite Iff.rfl rfl rfl
  | _ => rfl

theorem directoryWithdraw_withAlignment {a : Alignment} {t t' : State} (ht : t' = withAlignment a t) :
    directoryWithdraw t' = withAlignment a (directoryWithdraw t) := by
  unfold directoryWithdraw
  rw [ht, withAlignment_dir]
  cases t.dir.op with
  | suspended e c cause => cases cause <;> rfl
  | _ => rfl

theorem withFilterApplied_withAlignment (new : Settings) (a : Alignment) (s : State) :
    withFilterApplied new (withAlignment a s) = withAlignment a (withFilterApplied new s) := withAlignment_ite Iff.rfl rfl rfl

theorem withOriginApplied_withAlignment (old : Settings) (a : Alignment) (s : State) :
    withOriginApplied old (withAlignment a s) = withAlignment a (withOriginApplied old s) := withAlignment_ite Iff.rfl rfl rfl

theorem withHoldoverApplied_withAlignment (old : Settings) (a : Alignment) (s : State) :
    withHoldoverApplied old (withAlignment a s) = withAlignment a (withHoldoverApplied old s) :=
  withAlignment_ite Iff.rfl (withAlignment_ite Iff.rfl (lapseFeed_withAlignment a s) rfl) rfl

theorem withSuspendApplied_withAlignment (old : Settings) (a : Alignment) (s : State) :
    withSuspendApplied old (withAlignment a s) = withAlignment a (withSuspendApplied old s) :=
  withAlignment_ite Iff.rfl
    (withAlignment_ite Iff.rfl (withAlignment_ite Iff.rfl (directoryRaise_withAlignment rfl) rfl)
      (directoryWithdraw_withAlignment rfl)) rfl

theorem withFontApplied_withAlignment (old : Settings) (a : Alignment) (s : State) :
    withFontApplied old (withAlignment a s) = withAlignment a (withFontApplied old s) := withAlignment_ite Iff.rfl rfl rfl

theorem applySettings_withAlignment (new : Settings) (a : Alignment) (s : State) :
    applySettings new (withAlignment a s) = withAlignment a (applySettings new s) := by
  rw [applySettings_eq, applySettings_eq, withAlignment_settings, withFilterApplied_withAlignment,
    withOriginApplied_withAlignment, withHoldoverApplied_withAlignment, withSuspendApplied_withAlignment,
    withFontApplied_withAlignment]

theorem acceptSetBoard_withAlignment (h : Header) (f : BoardFields) (a : Alignment) (s : State) :
    acceptSetBoard h f (withAlignment a s) = withAlignment a (acceptSetBoard h f s) :=
  withAlignment_ite Iff.rfl (answer_withAlignment rfl)
    (withAlignment_ite Iff.rfl (answer_withAlignment rfl) (answer_withAlignment (applySettings_withAlignment _ a s)))

theorem acceptRestart_withAlignment (a : Alignment) (s : State) :
    acceptRestart (withAlignment a s) = withAlignment a (acceptRestart s) := by
  rw [acceptRestart_eq, acceptRestart_eq]
  exact applyBoard_withAlignment _ a (restartedPart s)

/-! ### The arbiter's decision -/

theorem reportBanks_withAlignment {a : Alignment} {t t' : State} (ht : t' = withAlignment a t) :
    reportBanks t' = withAlignment a (reportBanks t) := ht ▸ rfl

theorem judgeRequest_withAlignment (a : Alignment) (s : State) :
    judgeRequest (withAlignment a s) = withAlignment a (judgeRequest s) :=
  withAlignment_ite Iff.rfl
    (withAlignment_ite Iff.rfl (reportBanks_withAlignment (directoryWithdraw_withAlignment rfl)) rfl)
    (withAlignment_ite Iff.rfl (reportBanks_withAlignment (directoryRaise_withAlignment rfl)) rfl)

theorem grantable_withAlignment (a : Alignment) (s : State) : grantable (withAlignment a s) = grantable s := by
  funext slot
  cases slot <;> rfl

theorem grant_withAlignment (slot : Slot) (a : Alignment) (s : State) :
    grant slot (withAlignment a s) = withAlignment a (grant slot s) := by
  cases slot with
  | table =>
    have hline : firstEligible (withAlignment a s) = firstEligible s := rfl
    unfold grant
    rw [hline]
    cases firstEligible s <;> rfl
  | scroll | clock => rfl
  | banner => exact withAlignment_ite Iff.rfl rfl rfl

theorem decideGrant_withAlignment (a : Alignment) (s : State) :
    decideGrant (withAlignment a s) = withAlignment a (decideGrant s) := by
  unfold decideGrant
  rw [grantable_withAlignment, withAlignment_paint]
  cases s.paint.job with
  | some job => rfl
  | none =>
    dsimp only
    cases (roundAfter s.paint.lastGranted).find? (grantable s) with
    | some slot => exact grant_withAlignment slot a s
    | none => rfl

theorem settle_withAlignment (a : Alignment) (s : State) : settle (withAlignment a s) = withAlignment a (settle s) := by
  unfold settle
  rw [judgeRequest_withAlignment, decideGrant_withAlignment, judgeRequest_withAlignment]

/-! ### Messages -/

theorem acceptMessage_withAlignment (h : Header) (m : Message) (a : Alignment) (s : State) :
    acceptMessage h m (withAlignment a s) = withAlignment a (acceptMessage h m s) := by
  cases m with
  | post f => exact acceptPost_withAlignment h f a s
  | amend f => exact acceptAmend_withAlignment h f a s
  | retire key => exact acceptRetire_withAlignment h key a s
  | clearBoard => exact acceptClear_withAlignment h a s
  | holdBoard => exact acceptHold_withAlignment h a s
  | releaseBoard => exact acceptRelease_withAlignment h a s
  | setBanner f => exact acceptSetBanner_withAlignment h f a s
  | clearBanner => exact acceptClearBanner_withAlignment h a s
  | writePlace f => exact acceptWrite_withAlignment h f a s
  | eraseSector sector => exact acceptErase_withAlignment h sector a s
  | suspendErase => exact acceptSuspend_withAlignment h a s
  | resumeErase => exact acceptResume_withAlignment h a s
  | lockSectors sectors => exact acceptLock_withAlignment h sectors a s
  | freeSectors sectors => exact acceptFree_withAlignment h sectors a s
  | readService key | readPlace place =>
    exact withAlignment_ite Iff.rfl (enqueueRead_withAlignment _ _ a s) (answerRead_withAlignment _ _ _ _ a s)
  | readBoard => exact enqueueRead_withAlignment _ _ a s
  | setBoard f => exact acceptSetBoard_withAlignment h f a s
  | restart => exact acceptRestart_withAlignment a s

theorem dispatch_withAlignment (kind : Byte) (h : Header) (params : List Byte) (a : Alignment) (s : State) :
    dispatch kind h params (withAlignment a s) = withAlignment a (dispatch kind h params s) := by
  unfold dispatch
  cases kindReader kind with
  | none => exact answer_withAlignment rfl
  | some read =>
    dsimp only
    cases read params with
    | none => exact withAlignment_ite Iff.rfl (answerRead_withAlignment _ _ _ _ a s) (answer_withAlignment rfl)
    | some m => exact (congrArg settle (acceptMessage_withAlignment h m a s)).trans (settle_withAlignment a _)

theorem dispatchOctets_withAlignment (octets : List Byte) {a : Alignment} {t t' : State} (ht : t' = withAlignment a t) :
    dispatchOctets octets t' = withAlignment a (dispatchOctets octets t) := by
  unfold dispatchOctets
  rw [ht]
  split
  · exact dispatch_withAlignment _ _ _ a t
  · rfl

end Sys2Proof.Machine

/-! SUPPORT for O34. What a message leaves of the receiver and the unpacker, and the unpacker octet by octet. -/

namespace Sys2Proof.Machine

/-! ### What a message leaves of the feed line -/

/-- The receiver goes on taking octets as before, and the unpacker stands or is reset (R189). -/
def GoesOn (s t : State) : Prop :=
  t.phase = s.phase ∧ t.feed.held = s.feed.held ∧ t.feed.started = s.feed.started ∧
    (t.unpacker = s.unpacker ∨ t.unpacker = Unpacker.reset)

theorem GoesOn.trans {s t u : State} (h : GoesOn s t) (g : GoesOn t u) : GoesOn s u := by
  obtain ⟨hphase, hheld, hstarted, hunpack⟩ := h
  obtain ⟨gphase, gheld, gstarted, gunpack⟩ := g
  exact ⟨gphase.trans hphase, gheld.trans hheld, gstarted.trans hstarted, gunpack.elim (fun he => he ▸ hunpack) .inr⟩

/-- The parts that say whether octets are taken and what is held of a message. -/
def lineParts : List Part := [.phase, .feed, .unpacker]

theorem SameBut.goesOn {l : List Part} {s t : State} (h : SameBut l s t) (hl : ∀ p ∈ lineParts, p ∉ l := by decide) :
    GoesOn s t := by
  have hfeed : t.feed = s.feed := h .feed (hl _ (by decide))
  exact ⟨h .phase (hl _ (by decide)), congrArg FeedReceiver.held hfeed, congrArg FeedReceiver.started hfeed,
    .inl (h .unpacker (hl _ (by decide)))⟩

theorem withFilterApplied_goesOn (new : Settings) (s : State) : GoesOn s (withFilterApplied new s) := by
  unfold withFilterApplied
  split <;> exact ⟨rfl, rfl, rfl, .inl rfl⟩

theorem withHoldoverApplied_goesOn (old : Settings) (s : State) : GoesOn s (withHoldoverApplied old s) := by
  obtain ⟨repainted, ⟨hsame, -⟩, -, -, -, hfeed, -⟩ := withHoldoverApplied_facts old s
  exact ⟨hsame .phase (by decide), congrArg FeedReceiver.held hfeed, congrArg FeedReceiver.started hfeed,
    .inl (hsame .unpacker (by decide))⟩

theorem applySettings_goesOn (new : Settings) (s : State) : GoesOn s (applySettings new s) := by
  rw [applySettings_eq]
  have horigin (u : State) : GoesOn u (withOriginApplied s.settings u) := (withOriginApplied_facts s.settings u).left.goesOn
  have hfont (u : State) : GoesOn u (withFontApplied s.settings u) := (withFontApplied_facts s.settings u).left.goesOn
  exact ((((withFilterApplied_goesOn new s).trans (horigin _)).trans (withHoldoverApplied_goesOn _ _)).trans
    (withSuspendApplied_sameBut _ _).goesOn).trans (hfont _)

theorem answer_goesOn (kind : Byte) (h : Header) (o d : Nat) (s : State) : GoesOn s (answer kind h o d s) :=
  (answer_sameBut kind h o d s).goesOn

/-- A choice between two events that leave the feed line. -/
theorem goesOn_ite {p : Prop} [Decidable p] {s t u : State} (ht : GoesOn s t) (hu : GoesOn s u) :
    GoesOn s (if p then t else u) := by
  split
  · exact ht
  · exact hu

theorem acceptSetBoard_goesOn (h : Header) (f : BoardFields) (s : State) : GoesOn s (acceptSetBoard h f s) :=
  goesOn_ite (answer_goesOn _ _ _ _ s) (goesOn_ite (answer_goesOn _ _ _ _ s)
    ((applySettings_goesOn _ s).trans (answer_goesOn _ _ _ _ _)))

/-- RESTART alone reaches the feed line: it resets the unpacker, and of the receiver the candidate and the count (R189). -/
theorem acceptRestart_goesOn (s : State) : GoesOn s (acceptRestart s) := by
  rw [acceptRestart_eq]
  obtain ⟨job, hboard, -⟩ := applyBoard_paint
    (deriveBoard (restartedPart s).feed.station (restartedPart s).time.freshness (restartedPart s).time.valid) (restartedPart s)
  have hselect : selectFirst (restartedPart s) = _ := hboard
  rw [hselect]
  exact ⟨rfl, rfl, rfl, .inr rfl⟩

theorem acceptMessage_goesOn (h : Header) (m : Message) (s : State) : GoesOn s (acceptMessage h m s) := by
  cases m with
  | post f => exact (acceptPost_sameBut h f s).goesOn
  | amend f => exact (acceptAmend_sameBut h f s).goesOn
  | retire key => exact (acceptRetire_sameBut h key s).goesOn
  | clearBoard => exact (acceptClear_sameBut h s).goesOn
  | holdBoard => exact (acceptHold_sameBut h s).goesOn
  | releaseBoard => exact (acceptRelease_sameBut h s).goesOn
  | setBanner f => exact (acceptSetBanner_sameBut h f s).goesOn
  | clearBanner => exact (acceptClearBanner_sameBut h s).goesOn
  | writePlace f => exact (acceptWrite_sameBut h f s).goesOn
  | eraseSector sector => exact (acceptErase_sameBut h sector s).goesOn
  | suspendErase => exact (acceptSuspend_sameBut h s).goesOn
  | resumeErase => exact (acceptResume_sameBut h s).goesOn
  | lockSectors sectors => exact (acceptLock_sameBut h sectors s).goesOn
  | freeSectors sectors => exact (acceptFree_sameBut h sectors s).goesOn
  | readService key | readPlace place =>
    exact (sameBut_ite (enqueueRead_sameBut _ _ s) (answerRead_sameBut _ _ _ _ s)).goesOn
  | readBoard => exact (enqueueRead_sameBut _ _ s).goesOn
  | setBoard f => exact acceptSetBoard_goesOn h f s
  | restart => exact acceptRestart_goesOn s

/-- A part whose Feed Receiver takes octets, with its arbiter at rest. -/
def Attending (s : State) : Prop := Listening s ∧ s.feed.started = true ∧ Settled s

theorem Attending.goesOn {s t : State} (h : Attending s) (g : GoesOn s t) (hs : Settled t) : Attending t := by
  obtain ⟨⟨hphase, hheld⟩, hstarted, -⟩ := h
  obtain ⟨gphase, gheld, gstarted, -⟩ := g
  exact ⟨⟨gphase.trans hphase, gheld.trans hheld⟩, gstarted.trans hstarted, hs⟩

/-- A dispatched message leaves an arbiter at rest at rest: it ends with an answer or with the arbiter's decision (R177). -/
theorem dispatch_goesOn (kind : Byte) (h : Header) (params : List Byte) (s : State) :
    GoesOn s (dispatch kind h params s) ∧ (Settled s → Settled (dispatch kind h params s)) := by
  have hanswer {t : State} (hsame : SameBut [.results] s t) : GoesOn s t ∧ (Settled s → Settled t) :=
    ⟨hsame.goesOn, settled_congr (hsame.mono (by simp [asideParts]))⟩
  unfold dispatch
  split
  · exact hanswer (answer_sameBut _ _ _ _ s)
  · split
    · exact hanswer (sameBut_ite (answerRead_sameBut _ _ _ _ s) (answer_sameBut _ _ _ _ s))
    · exact ⟨(acceptMessage_goesOn _ _ s).trans (settle_sameBut _).goesOn, fun _ => settled_settle _⟩

theorem dispatchOctets_goesOn (octets : List Byte) (s : State) :
    GoesOn s (dispatchOctets octets s) ∧ (Settled s → Settled (dispatchOctets octets s)) := by
  unfold dispatchOctets
  split
  · exact dispatch_goesOn _ _ _ s
  · exact ⟨(SameBut.refl [] s).goesOn, id⟩

/-! ### One octet taken -/

theorem takeOctet_searching {o : Octet} {s : State} (h : s.unpacker.state = .searching) : takeOctet o s =
    if o.data = 0xC3 ∧ o.stopError = false then .done (withUnpack .length [o] s) else .done s := by
  unfold takeOctet
  dsimp only
  rw [h]
  rfl

theorem takeOctet_length {o : Octet} {s : State} (h : s.unpacker.state = .length) : takeOctet o s =
    if o.stopError = false ∧ 5 ≤ o.data.toNat ∧ o.data.toNat ≤ 250 then
      .done (withUnpack (.body o.data.toNat) (s.unpacker.buffer ++ [o]) s)
    else .bad (countBad s) ((s.unpacker.buffer ++ [o]).drop 1) := by
  unfold takeOctet
  dsimp only
  rw [h]

theorem takeOctet_body {o : Octet} {s : State} {n : Nat} (h : s.unpacker.state = .body n) : takeOctet o s =
    if o.stopError then .bad (countBad s) ((s.unpacker.buffer ++ [o]).drop 1)
    else if 1 < n then .done (withUnpack (.body (n - 1)) (s.unpacker.buffer ++ [o]) s)
    else if crcMatches ((s.unpacker.buffer ++ [o]).map Octet.data) then
      .done (dispatchOctets ((s.unpacker.buffer ++ [o]).map Octet.data) (withUnpack .searching [] s))
    else .bad (countBad s) ((s.unpacker.buffer ++ [o]).drop 1) := by
  unfold takeOctet
  dsimp only
  rw [h]

/-- What one payload octet can do: nothing, join the buffer, complete a message, or find one bad (R174, R175). -/
inductive Takes (o : Octet) (s : State) : Taken → Prop
  | ignored : Takes o s (.done s)
  | kept (st : UnpackState) (buffer : List Octet) (h : buffer.length ≤ s.unpacker.buffer.length + 1) :
      Takes o s (.done (withUnpack st buffer s))
  | dispatched (octets : List Byte) : Takes o s (.done (dispatchOctets octets (withUnpack .searching [] s)))
  | bad : Takes o s (.bad (countBad s) ((s.unpacker.buffer ++ [o]).drop 1))

theorem takeOctet_takes (o : Octet) (s : State) : Takes o s (takeOctet o s) := by
  have hjoin (st : UnpackState) : Takes o s (.done (withUnpack st (s.unpacker.buffer ++ [o]) s)) :=
    .kept st _ (by rw [List.length_append, List.length_singleton])
  cases hstate : s.unpacker.state with
  | searching =>
    rw [takeOctet_searching hstate]
    split
    · exact .kept .length [o] (by simp)
    · exact .ignored
  | length =>
    rw [takeOctet_length hstate]
    split
    · exact hjoin _
    · exact .bad
  | body n =>
    rw [takeOctet_body hstate]
    split_ifs
    · exact .bad
    · exact hjoin _
    · exact .dispatched _
    · exact .bad

theorem Takes.attending {o : Octet} {s : State} {r : Taken} (ht : Takes o s r) (h : Attending s) : Attending r.state := by
  cases ht with
  | ignored | kept | bad => exact h
  | dispatched octets =>
    obtain ⟨hgoes, hsettled⟩ := dispatchOctets_goesOn octets (withUnpack .searching [] s)
    obtain ⟨-, -, hrest⟩ := id h
    exact Attending.goesOn (s := withUnpack .searching [] s) h hgoes (hsettled hrest)

/-- The octets in hand: those the unpacker holds. -/
def inHand (s : State) : Nat := s.unpacker.buffer.length

theorem dispatchOctets_inHand (octets : List Byte) (s : State) :
    inHand (dispatchOctets octets (withUnpack .searching [] s)) = 0 := by
  obtain ⟨⟨-, -, -, hunpack⟩, -⟩ := dispatchOctets_goesOn octets (withUnpack .searching [] s)
  unfold inHand
  rcases hunpack with he | he <;> rw [he] <;> rfl

theorem takeOctet_done_inHand {o : Octet} {s u : State} (h : takeOctet o s = .done u) : inHand u ≤ inHand s + 1 := by
  have ht := takeOctet_takes o s
  rw [h] at ht
  cases ht with
  | ignored => exact Nat.le_succ _
  | kept st buffer hlen => exact hlen
  | dispatched octets => exact (dispatchOctets_inHand octets s).le.trans (Nat.zero_le _)

theorem takeOctet_bad_inHand {o : Octet} {s u : State} {held : List Octet} (h : takeOctet o s = .bad u held) :
    inHand u = 0 ∧ held.length = inHand s := by
  have ht := takeOctet_takes o s
  rw [h] at ht
  cases ht with
  | bad => exact ⟨rfl, by simp [inHand]⟩

/-! ### Octets taken one after another -/

theorem takeOctets_done {o : Octet} {s u : State} (h : takeOctet o s = .done u) (rest : List Octet) :
    takeOctets (o :: rest) s = takeOctets rest u := by
  rw [takeOctets, h]

theorem takeOctets_bad {o : Octet} {s u : State} {held : List Octet} (h : takeOctet o s = .bad u held) (rest : List Octet) :
    takeOctets (o :: rest) s = (u, some (held ++ rest)) := by
  rw [takeOctets, h]

/-- Octets taken to their end leave no more in hand; a bad message gives up its marker, so that fewer are to be examined
again (R175). -/
theorem takeOctets_inHand (l : List Octet) (s : State) :
    (∀ u, takeOctets l s = (u, none) → inHand u ≤ inHand s + l.length) ∧
      ∀ u again, takeOctets l s = (u, some again) → inHand u + again.length < inHand s + l.length := by
  induction l generalizing s with
  | nil =>
    refine ⟨fun u h => ?_, fun u again h => (by cases h)⟩
    cases h
    exact Nat.le_refl _
  | cons o rest ih =>
    rw [List.length_cons]
    cases ho : takeOctet o s with
    | done v =>
      have hv := takeOctet_done_inHand ho
      obtain ⟨hnone, hsome⟩ := ih v
      rw [takeOctets_done ho]
      refine ⟨fun u h => ?_, fun u again h => ?_⟩
      · have hu := hnone u h
        omega
      · have hu := hsome u again h
        omega
    | bad v held =>
      obtain ⟨hv, hheld⟩ := takeOctet_bad_inHand ho
      rw [takeOctets_bad ho]
      refine ⟨fun u h => (by cases h), fun u again h => ?_⟩
      cases h
      rw [List.length_append]
      omega

theorem takeOctets_append (l r : List Octet) (s : State) : takeOctets (l ++ r) s =
    match takeOctets l s with
    | (u, none) => takeOctets r u
    | (u, some again) => (u, some (again ++ r)) := by
  induction l generalizing s with
  | nil => rfl
  | cons o rest ih =>
    rw [List.cons_append]
    cases ho : takeOctet o s with
    | done v => rw [takeOctets_done ho, takeOctets_done ho, ih]
    | bad v held => rw [takeOctets_bad ho, takeOctets_bad ho, ← List.append_assoc]

theorem takeOctets_attending (l : List Octet) {s : State} (h : Attending s) : Attending (takeOctets l s).1 := by
  induction l generalizing s with
  | nil => exact h
  | cons o rest ih =>
    have ht := (takeOctet_takes o s).attending h
    cases ho : takeOctet o s with
    | done v =>
      rw [ho] at ht
      rw [takeOctets_done ho]
      exact ih ht
    | bad v held =>
      rw [ho] at ht
      rw [takeOctets_bad ho]
      exact ht

/-! ### Re-examination -/

theorem examine_done {l : List Octet} {s u : State} (h : takeOctets l s = (u, none)) (n : Nat) : examine (n + 1) l s = u := by
  rw [examine, h]

theorem examine_again {l again : List Octet} {s u : State} (h : takeOctets l s = (u, some again)) (n : Nat) :
    examine (n + 1) l s = examine n again u := by
  rw [examine, h]

theorem examine_congr {n : Nat} {l r : List Octet} {s u : State} (h : takeOctets l s = takeOctets r u) :
    examine (n + 1) l s = examine (n + 1) r u := by
  rw [examine, examine, h]

theorem examine_attending (n : Nat) (l : List Octet) {s : State} (h : Attending s) : Attending (examine n l s) := by
  induction n generalizing l s with
  | zero => exact h
  | succ n ih =>
    have ht := takeOctets_attending l h
    match hl : takeOctets l s with
    | (u, none) => rw [hl] at ht; rw [examine_done hl]; exact ht
    | (u, some again) => rw [hl] at ht; rw [examine_again hl]; exact ih again ht

theorem examine_inHand {n : Nat} {l : List Octet} {s : State} : inHand (examine n l s) ≤ inHand s + l.length := by
  induction n generalizing l s with
  | zero => exact Nat.le_add_right _ _
  | succ n ih =>
    obtain ⟨hnone, hsome⟩ := takeOctets_inHand l s
    match hl : takeOctets l s with
    | (u, none) => rw [examine_done hl]; exact hnone u hl
    | (u, some again) => rw [examine_again hl]; exact ih.trans (hsome u again hl).le

/-- Any fuel above the octets in hand gives the same re-examination. -/
theorem examine_fuel {n m : Nat} {l : List Octet} {s : State} (hn : inHand s + l.length < n) (hm : inHand s + l.length < m) :
    examine n l s = examine m l s := by
  induction n generalizing m l s with
  | zero => omega
  | succ n ih =>
    obtain ⟨m, rfl⟩ : ∃ k, m = k + 1 := ⟨m - 1, by omega⟩
    match hl : takeOctets l s with
    | (u, none) => rw [examine_done hl, examine_done hl]
    | (u, some again) =>
      have hless := (takeOctets_inHand l s).right u again hl
      rw [examine_again hl, examine_again hl]
      exact ih (by omega) (by omega)

/-- The octets still to come wait for the re-examination of those before them (R175). -/
theorem examine_append {n : Nat} {l r : List Octet} {s : State} (h : inHand s + l.length + r.length < n) :
    examine n (l ++ r) s = examine n r (examine n l s) := by
  induction n generalizing l s with
  | zero => omega
  | succ n ih =>
    have happend := takeOctets_append l r s
    match hl : takeOctets l s with
    | (u, none) =>
      rw [hl] at happend
      rw [examine_done hl]
      exact examine_congr happend
    | (u, some again) =>
      have hless := (takeOctets_inHand l s).right u again hl
      have hafter : inHand (examine n again u) ≤ inHand u + again.length := examine_inHand
      rw [hl] at happend
      rw [examine_again hl, examine_again happend, ih (by omega)]
      exact examine_fuel (by omega) (by omega)

/-! ### The alignment plays no part -/

/-- An outcome with the alignment of its state changed. -/
def Taken.realigned (a : Alignment) : Taken → Taken
  | .done s => .done (withAlignment a s)
  | .bad s held => .bad (withAlignment a s) held

theorem takeOctet_withAlignment (o : Octet) (a : Alignment) (s : State) :
    takeOctet o (withAlignment a s) = (takeOctet o s).realigned a := by
  have hsame : (withAlignment a s).unpacker = s.unpacker := rfl
  cases hstate : s.unpacker.state with
  | searching =>
    rw [takeOctet_searching hstate, takeOctet_searching (hsame ▸ hstate)]
    split <;> rfl
  | length =>
    rw [takeOctet_length hstate, takeOctet_length (hsame ▸ hstate), hsame]
    split <;> rfl
  | body n =>
    rw [takeOctet_body hstate, takeOctet_body (hsame ▸ hstate), hsame]
    split_ifs
    · rfl
    · rfl
    · exact congrArg Taken.done (dispatchOctets_withAlignment _ rfl)
    · rfl

theorem takeOctets_withAlignment (l : List Octet) (a : Alignment) (s : State) :
    takeOctets l (withAlignment a s) = (withAlignment a (takeOctets l s).1, (takeOctets l s).2) := by
  induction l generalizing s with
  | nil => rfl
  | cons o rest ih =>
    have ho' := takeOctet_withAlignment o a s
    cases ho : takeOctet o s with
    | done u =>
      rw [ho] at ho'
      rw [takeOctets_done ho, takeOctets_done ho', ih]
    | bad u held =>
      rw [ho] at ho'
      rw [takeOctets_bad ho, takeOctets_bad ho']

theorem examine_withAlignment (n : Nat) (l : List Octet) (a : Alignment) (s : State) :
    examine n l (withAlignment a s) = withAlignment a (examine n l s) := by
  induction n generalizing l s with
  | zero => rfl
  | succ n ih =>
    have hl' := takeOctets_withAlignment l a s
    match hl : takeOctets l s with
    | (u, none) =>
      rw [hl] at hl'
      rw [examine_done hl, examine_done hl']
    | (u, some again) =>
      rw [hl] at hl'
      rw [examine_again hl, examine_again hl', ih]

end Sys2Proof.Machine

/-! O34. A payload octet by the unpacker's state, and the octets held after a bad message's marker taken anew. -/

namespace Sys2Proof.Machine

/-! ### A bad message -/

theorem crcMatches_iff {marker : Byte} {l : List Byte} : crcMatches (marker :: l) = true ↔ CrcGood (marker :: l) := by
  have hcrc (x : List Byte) : (crcOctets x).length = 2 := rfl
  unfold crcMatches CrcGood
  rw [List.drop_one, List.tail_cons, decide_eq_true_iff]
  refine ⟨fun h => ⟨marker, l.take (l.length - 2), ?_⟩, ?_⟩
  · rw [h, List.take_append_drop]
  · rintro ⟨marker', body, h⟩
    obtain ⟨-, rfl⟩ := List.cons.inj h
    have hlen : (body ++ crcOctets body).length - 2 = body.length := by
      rw [List.length_append, hcrc, Nat.add_sub_cancel]
    rw [hlen, List.take_left, List.drop_left]

theorem crcMatches_buffer {buffer : List Octet} {o : Octet} :
    crcMatches ((buffer ++ [o]).map Octet.data) = true ↔ CrcGood ((buffer ++ [o]).map Octet.data) := by
  cases buffer <;> exact crcMatches_iff

/-- An octet that finds the message bad counts it and gives back the octets held after its marker (R175). -/
theorem takeOctet_foundBad {o : Octet} {s : State} (h : FoundBad s.unpacker o) :
    takeOctet o s = .bad (countBad s) ((s.unpacker.buffer ++ [o]).drop 1) := by
  rcases h with ⟨hstate, hbad⟩ | ⟨n, hstate, hbad⟩
  · rw [takeOctet_length hstate]
    refine if_neg fun ⟨hstop, hlow, hhigh⟩ => ?_
    rcases hbad with hbad | hbad | hbad
    · exact Bool.false_ne_true (hstop.symm.trans hbad)
    · omega
    · omega
  · rw [takeOctet_body hstate]
    rcases hbad with hstop | ⟨hlast, hcrc⟩
    · exact if_pos hstop
    · rw [if_neg (Nat.not_lt.2 hlast), if_neg fun hmatch => hcrc (crcMatches_buffer.1 hmatch), ite_self]

/-- Octets among which no marker stands are ignored while no message is being reassembled (R174). -/
theorem takeOctets_ignored {l : List Octet} {s : State} (hstate : s.unpacker.state = .searching)
    (hl : ∀ x ∈ l, ¬ GoodOctet x 0xC3) : takeOctets l s = (s, none) := by
  induction l with
  | nil => rfl
  | cons o rest ih =>
    obtain ⟨ho, hrest⟩ := List.forall_mem_cons.1 hl
    have hdone : takeOctet o s = .done s := (takeOctet_searching hstate).trans (if_neg ho)
    rw [takeOctets_done hdone, ih hrest]

theorem payloadOctet_done {o : Octet} {s u : State} (h : takeOctet o s = .done u) : payloadOctet o s = u :=
  examine_done ((takeOctets_done h []).trans rfl) _

theorem payloadOctet_foundBad {o : Octet} {s : State} (h : FoundBad s.unpacker o) :
    payloadOctet o s = examine 253 ((s.unpacker.buffer ++ [o]).drop 1) (countBad s) := by
  have hagain := takeOctets_bad (takeOctet_foundBad h) []
  rw [List.append_nil] at hagain
  exact examine_again hagain 253

/-- What a payload octet makes of the unpacker when it neither completes a good message nor sets off a message in a
re-examination (R174, R175). -/
theorem payloadOctet_unpacks {o : Octet} {s : State} {u : Unpacker}
    (h : (s.unpacker.state = .searching ∧ ¬ GoodOctet o 0xC3 ∧ u = s.unpacker) ∨
      (s.unpacker.state = .searching ∧ GoodOctet o 0xC3 ∧ u = { s.unpacker with state := .length, buffer := [o] }) ∨
      (s.unpacker.state = .length ∧ o.stopError = false ∧ 5 ≤ o.data.toNat ∧ o.data.toNat ≤ 250 ∧
        u = { s.unpacker with state := .body o.data.toNat, buffer := s.unpacker.buffer ++ [o] }) ∨
      (∃ n, s.unpacker.state = .body n ∧ 1 < n ∧ o.stopError = false ∧
        u = { s.unpacker with state := .body (n - 1), buffer := s.unpacker.buffer ++ [o] }) ∨
      (FoundBad s.unpacker o ∧ (∀ x ∈ (s.unpacker.buffer ++ [o]).drop 1, ¬ GoodOctet x 0xC3) ∧
        u = badMessage s.unpacker)) : payloadOctet o s = s.withUnpacker u := by
  rcases h with ⟨hstate, ho, rfl⟩ | ⟨hstate, ho, rfl⟩ | ⟨hstate, hstop, hlow, hhigh, rfl⟩ | ⟨n, hstate, hn, hstop, rfl⟩ |
    ⟨hbad, hheld, rfl⟩
  · exact payloadOctet_done ((takeOctet_searching hstate).trans (if_neg ho))
  · exact payloadOctet_done ((takeOctet_searching hstate).trans (if_pos ho))
  · exact payloadOctet_done ((takeOctet_length hstate).trans (if_pos ⟨hstop, hlow, hhigh⟩))
  · have hnot : ¬ o.stopError = true := by rw [hstop]; nofun
    exact payloadOctet_done ((takeOctet_body hstate).trans ((if_neg hnot).trans (if_pos hn)))
  · rw [payloadOctet_foundBad hbad]
    exact examine_done (takeOctets_ignored rfl hheld) _

/-! ### The octets held taken anew -/

/-- A payload octet that arrives at an attending part acts on the unpacker alone, whatever the alignment in which it comes. -/
theorem exec_feedOctet_payload (o : Octet) {s : State} (h : Attending s) :
    exec (.feedOctet o) (withAlignment (.aligned 2 true []) s) =
      .next (withAlignment (.aligned 3 true []) (payloadOctet o s)) := by
  obtain ⟨hl, hstarted, hrest⟩ := id h
  obtain ⟨-, -, hafter⟩ := examine_attending (bufferLimit + 2) [o] h
  have hbegun : begun (withAlignment (.aligned 2 true []) s) = withAlignment (.aligned 2 true []) s := begun_of_started hstarted
  have hlistens : Listening (withAlignment (.aligned 2 true []) s) := hl
  rw [exec_of_delivers hlistens (.inl rfl), hbegun, receiveOctet_payload rfl (Nat.le_refl 2)]
  have hpayload : payloadOctet o (withAlignment (afterOctet 2 true []) s) =
      withAlignment (.aligned 3 true []) (payloadOctet o s) := examine_withAlignment _ _ _ _
  exact congrArg Host.Outcome.next ((congrArg settle hpayload).trans (settle_of_settled hafter))

/-- A re-examination is the octets taken anew one after another, but for the alignment in which each comes (R175). -/
theorem examine_takenAnew {l : List Octet} {s : State} (a : Alignment) (h : Attending s) (hlen : inHand s + l.length < 254) :
    ∃ t, TakenAnew l s t ∧ examine 254 l (withAlignment a s) = withAlignment a t := by
  induction l generalizing s with
  | nil => exact ⟨s, rfl, rfl⟩
  | cons o rest ih =>
    rw [List.length_cons] at hlen
    have hafter : Attending (payloadOctet o s) := examine_attending _ [o] h
    have hhand : inHand (payloadOctet o s) ≤ inHand s + 1 := examine_inHand
    have hnext : Attending (withAlignment (.aligned 3 true []) (payloadOctet o s)) := hafter
    have hfew : inHand (withAlignment (.aligned 3 true []) (payloadOctet o s)) + rest.length < 254 := by
      have hsame : inHand (withAlignment (.aligned 3 true []) (payloadOctet o s)) = inHand (payloadOctet o s) := rfl
      omega
    obtain ⟨t, htaken, hexamined⟩ := ih hnext hfew
    refine ⟨t, ⟨_, exec_feedOctet_payload o h, htaken⟩, ?_⟩
    have hfirst : examine 254 [o] (withAlignment a s) = withAlignment a (payloadOctet o s) := examine_withAlignment _ _ _ _
    have hsplit : examine 254 ([o] ++ rest) (withAlignment a s) = examine 254 rest (examine 254 [o] (withAlignment a s)) := by
      refine examine_append ?_
      have hsame : inHand (withAlignment a s) = inHand s := rfl
      rw [hsame, List.length_singleton]
      omega
    exact hsplit.trans ((congrArg (examine 254 rest) hfirst).trans hexamined)

/-- Settles O34, by what the octet does to the unpacker and, when it finds a message bad, by the octets held taken anew. -/
theorem payloadUnpacked : Obligations.PayloadUnpacked := by
  intro c o s k even marks hl hd h hk _
  have hexec := exec_of_delivers hl hd
  rw [receiveOctet_payload (s := begun s) h hk] at hexec
  refine ⟨fun u hu => ⟨_, hexec, ?_⟩, fun hbad hlen hrest => ?_⟩
  · rw [payloadOctet_unpacks (s := withAlignment (afterOctet k even marks) (begun s)) hu, settle_unpacker, settle_feed]
    exact ⟨rfl, rfl, framedAtRest_settle ((withFeed_sameBut _ s).trans (withUnpacker_sameBut _ _)) (by decide)⟩
  · have hattends : Attending (countBad (begun s)) := ⟨hl, rfl, hrest⟩
    have hheld : ((s.unpacker.buffer ++ [o]).drop 1).length = s.unpacker.buffer.length := by simp
    have hfew (n : Nat) (hn : 251 < n) : inHand (countBad (begun s)) + ((s.unpacker.buffer ++ [o]).drop 1).length < n := by
      have hnone : inHand (countBad (begun s)) = 0 := rfl
      omega
    obtain ⟨t, htaken, hexamined⟩ := examine_takenAnew (afterOctet k even marks) hattends (hfew 254 (by decide))
    have hpayload : payloadOctet o (withAlignment (afterOctet k even marks) (begun s)) =
        withAlignment (afterOctet k even marks) t := by
      rw [← hexamined, payloadOctet_foundBad (s := withAlignment (afterOctet k even marks) (begun s)) hbad]
      exact examine_fuel (hfew 253 (by decide)) (hfew 254 (by decide))
    have hsettled : Settled (withAlignment (afterOctet k even marks) t) := by
      obtain ⟨-, -, hafter⟩ := examine_attending 254 ((s.unpacker.buffer ++ [o]).drop 1)
        (s := withAlignment (afterOctet k even marks) (countBad (begun s))) hattends
      rwa [hexamined] at hafter
    rw [hpayload, settle_of_settled hsettled] at hexec
    exact ⟨t, htaken, hexec⟩

end Sys2Proof.Machine

/-! SUPPORT and O8. The result queue: what entering an entry and sending one make of it, and that nothing else touches it. -/

namespace Sys2Proof.Machine

/-! ### Entries joining and leaving -/

theorem Entry.reads_retag (o o' : ReadObject) (tag : Byte) (e : Entry) :
    (e.retag o tag).reads o' = e.reads o' := by
  cases e with
  | result kind t outcome detail => rfl
  | read t object =>
    by_cases h : object = o
    · simp [Entry.retag, Entry.reads, h]
    · simp [Entry.retag, Entry.reads, h]

/-- A queue that only loses entries stays in order. -/
theorem QueueInv.of_sublist {s t : State} (h : QueueInv s) (hq : t.results.queue.Sublist s.results.queue) : QueueInv t := by
  obtain ⟨hlen, hone⟩ := h
  exact ⟨hq.length_le.trans hlen, fun o => (hq.filter _).length_le.trans (hone o)⟩

theorem QueueInv.of_results {s t : State} (h : QueueInv s) (ht : t.results = s.results) : QueueInv t :=
  h.of_sublist (ht ▸ List.Sublist.refl _)

theorem QueueInv.withDir {s : State} (h : QueueInv s) (v : Directory) : QueueInv (s.withDir v) := h
theorem QueueInv.withTime {s : State} (h : QueueInv s) (v : Timekeeper) : QueueInv (s.withTime v) := h
theorem QueueInv.withFeed {s : State} (h : QueueInv s) (v : FeedReceiver) : QueueInv (s.withFeed v) := h

/-- A change of parts other than the results. -/
theorem QueueInv.of_same {l : List Part} {s t : State} (h : QueueInv s) (ht : SameBut l s t)
    (hl : .results ∉ l := by decide) : QueueInv t := h.of_results (ht .results hl)

theorem queueInv_ite {p : Prop} [Decidable p] {s t : State} (hs : QueueInv s) (ht : QueueInv t) :
    QueueInv (if p then s else t) := by
  split
  · exact hs
  · exact ht

/-- An entry that reads no object read by an entry that waits joins or is lost (R182). -/
theorem QueueInv.enqueue {s : State} (h : QueueInv s) {e : Entry}
    (hnew : ∀ o, e.reads o = true → ∀ x ∈ s.results.queue, x.reads o = false) : QueueInv (enqueue e s) := by
  obtain ⟨hlen, hone⟩ := id h
  unfold QueueInv
  rw [enqueue_results]
  split
  · refine ⟨?_, fun o => ?_⟩
    · rw [List.length_append, List.length_singleton]
      omega
    · rw [List.filter_append, List.length_append]
      cases he : e.reads o with
      | false => simpa [he] using hone o
      | true =>
        have hnone : s.results.queue.filter (Entry.reads o) = [] :=
          List.filter_eq_nil_iff.2 fun x hx => Bool.eq_false_iff.1 (hnew o he x hx)
        simp [he, hnone]
  · exact h

/-- A result reads no object. -/
theorem QueueInv.enqueue_result {s : State} (h : QueueInv s) (kind tag : Byte) (outcome detail : Nat) :
    QueueInv (Sys2Proof.Machine.enqueue (.result kind tag outcome detail) s) := h.enqueue nofun

/-- An answer after a change that leaves the results. -/
theorem QueueInv.answer {s t : State} (h : QueueInv s) (ht : t.results = s.results := by rfl) {kind : Byte} {hd : Header}
    {outcome detail : Nat} : QueueInv (answer kind hd outcome detail t) := by
  have hs : QueueInv t := h.of_results ht
  exact queueInv_ite (hs.enqueue_result _ _ _ _) hs

theorem QueueInv.answerRead {s : State} (h : QueueInv s) (kind : Byte) (hd : Header) (outcome detail : Nat) :
    QueueInv (answerRead kind hd outcome detail s) := h.enqueue_result _ _ _ _

theorem QueueInv.answerAll {s : State} (h : QueueInv s) {kind : Byte} {hs : List Header} {outcome detail : Nat} :
    QueueInv (answerAll kind hs outcome detail s) := by
  induction hs generalizing s with
  | nil => exact h
  | cons hd rest ih => exact ih h.answer

/-- A read merges into the entry that reads its object, or no entry does and it joins (R183). -/
theorem QueueInv.enqueueRead {s : State} (h : QueueInv s) (tag : Byte) (o : ReadObject) : QueueInv (enqueueRead tag o s) := by
  unfold Sys2Proof.Machine.enqueueRead
  split
  · obtain ⟨hlen, hone⟩ := h
    have hreads (o' : ReadObject) : Entry.reads o' ∘ Entry.retag o tag = Entry.reads o' :=
      funext fun e => e.reads_retag o o' tag
    refine ⟨?_, fun o' => ?_⟩
    · rw [State.withResults_results, List.length_map]
      exact hlen
    · rw [State.withResults_results, List.filter_map, hreads, List.length_map]
      exact hone o'
  · next hnone =>
    refine h.enqueue fun o' ho x hx => ?_
    have ho : o = o' := by simpa [Entry.reads] using ho
    subst ho
    exact Bool.eq_false_iff.2 fun hread => hnone (List.any_eq_true.2 ⟨x, hx, hread⟩)

/-- A slot of the return line leaves the queue or takes its head entry (R184). -/
theorem returnSlot_queue (s : State) :
    (returnSlot s).results.queue = s.results.queue ∨ (returnSlot s).results.queue = s.results.queue.tail := by
  have sent (b : Byte) (r : ResultSender) : (send b r).queue = r.queue := by
    obtain ⟨-, hqueue, -⟩ := send_is b r
    exact hqueue
  unfold returnSlot
  dsimp only
  split
  · exact .inl (sent _ _)
  · split
    · unfold sendOverhead
      dsimp only
      split_ifs <;> exact .inl (sent _ _)
    · unfold sendPayload
      dsimp only
      split
      · exact .inl (sent _ _)
      · split
        · next hqueue => exact .inr ((sent _ _).trans (congrArg List.tail hqueue).symm)
        · exact .inl (sent _ _)

theorem returnSlot_queueInv {s : State} (h : QueueInv s) : QueueInv (returnSlot s) := by
  refine h.of_sublist ?_
  rcases returnSlot_queue s with hq | hq
  · rw [hq]
  · rw [hq]
    exact List.tail_sublist _

/-! ### The messages of the Service Table -/

section
variable {s : State} (h : QueueInv s)
include h

theorem postCreate_queueInv (hd : Header) (f : PostFields) : QueueInv (postCreate hd f s) := by
  have hsweep := sweep_results s
  unfold postCreate
  dsimp only
  split
  · exact h.answer (createRecord_results _ _ _)
  · split
    · exact h.answer
    · split
      · exact h.answer ((createRecord_results _ _ _).trans hsweep)
      · exact h.answer hsweep

theorem acceptPost_queueInv (hd : Header) (f : PostFields) : QueueInv (acceptPost hd f s) := by
  unfold acceptPost
  dsimp only
  refine queueInv_ite ?_ h.answer
  split
  · split
    · exact h.answer
    · exact postCreate_queueInv h hd f
  · split
    · exact h.answer
    · exact h.answer
    · split
      · exact h.answer
      · exact h.answer (replaceRecord_results _ _ _)

theorem acceptAmend_queueInv (hd : Header) (f : AmendFields) : QueueInv (acceptAmend hd f s) := by
  unfold acceptAmend
  refine queueInv_ite ?_ h.answer
  split
  · exact h.answer
  · split
    · exact h.answer
    · split
      · exact h.answer
      · exact h.answer
      · exact queueInv_ite (h.answer (retable_results _ _)) h.answer

theorem acceptRetire_queueInv (hd : Header) (key : Nat) : QueueInv (acceptRetire hd key s) := by
  unfold acceptRetire
  refine queueInv_ite ?_ h.answer
  split
  · exact h.answer
  · refine h.answer ?_
    split
    · exact retireRecord_results _ _
    · rfl

/-! ### The Place Directory -/

theorem abandonGather_queueInv : QueueInv (abandonGather s) := by
  unfold abandonGather
  split
  · exact (h.withDir _).answerAll
  · exact h

theorem tryWrite_queueInv (hd : Header) (f : WriteFields) (op : DirOp) : QueueInv (tryWrite hd f op s) :=
  queueInv_ite h.answer (queueInv_ite h.answer h)

theorem acceptWrite_queueInv (hd : Header) (f : WriteFields) : QueueInv (acceptWrite hd f s) := by
  unfold acceptWrite
  dsimp only
  refine queueInv_ite ?_ h.answer
  split
  case h_1 => exact tryWrite_queueInv h _ _ _
  case h_2 => exact tryWrite_queueInv (abandonGather_queueInv h) _ _ _
  case h_3 => exact queueInv_ite h.answer (tryWrite_queueInv h _ _ _)
  all_goals exact h.answer

theorem completeWrite_queueInv (verified : Bool) : QueueInv (completeWrite verified s) := by
  have ended (w : WriteRun) (op : DirOp) : QueueInv (endWrite verified w op s) := h.answer
  unfold completeWrite
  split
  · exact ended _ _
  · exact (ended _ _).of_same (deferredResume_touches _)
  · exact h

theorem tryErase_queueInv (hd : Header) (sector : Nat) (e : EraseJob) (window : Nat) :
    QueueInv (tryErase hd sector e window s) := by
  refine queueInv_ite h.answer ?_
  split
  · exact h.answer
  · exact queueInv_ite h.answer (queueInv_ite h h)

theorem acceptErase_queueInv (hd : Header) (sector : Nat) : QueueInv (acceptErase hd sector s) := by
  unfold acceptErase
  refine queueInv_ite ?_ h.answer
  split
  case h_1 => exact tryErase_queueInv h _ _ _ _
  case h_2 => exact tryErase_queueInv h _ _ _ _
  all_goals exact h.answer

theorem gatherExpiry_queueInv : QueueInv (gatherExpiry s) := by
  unfold gatherExpiry
  split
  · exact h.of_same (enterErasing_touches _ _ s)
  · exact h

theorem sectorDone_queueInv : QueueInv (sectorDone s) := by
  unfold sectorDone
  split
  · exact queueInv_ite (h.withDir _).answerAll h
  · exact queueInv_ite (queueInv_ite (h.withDir _).answerAll.answerAll h) h
  · exact h

theorem acceptSuspend_queueInv (hd : Header) : QueueInv (acceptSuspend hd s) := by
  unfold acceptSuspend
  split
  case h_1 => exact h
  case h_2 => exact h
  all_goals exact h.answer

theorem suspensionDone_queueInv : QueueInv (suspensionDone s) := by
  unfold suspensionDone
  split
  · exact (h.withDir _).answerAll.of_same (deferredResume_touches _)
  · exact h

theorem acceptResume_queueInv (hd : Header) : QueueInv (acceptResume hd s) := by
  unfold acceptResume
  split
  case h_1 => exact h.answer (enterErasing_touches _ _ s .results (by decide))
  all_goals exact h.answer

theorem tryLock_queueInv (kind : Byte) (hd : Header) (target : List Nat) : QueueInv (tryLock kind hd target s) := by
  unfold tryLock
  split
  case h_1 => exact h
  case h_2 => exact abandonGather_queueInv h
  all_goals exact h.answer

theorem acceptLock_queueInv (hd : Header) (sectors : Byte) : QueueInv (acceptLock hd sectors s) :=
  queueInv_ite h.answer (tryLock_queueInv h _ _ _)

theorem acceptFree_queueInv (hd : Header) (sectors : Byte) : QueueInv (acceptFree hd sectors s) :=
  queueInv_ite h.answer (queueInv_ite (tryLock_queueInv h _ _ _) h.answer)

theorem lockDone_queueInv : QueueInv (lockDone s) := by
  unfold lockDone
  split
  · exact h.answer
  · exact h

/-! ### The Paint Engine -/

theorem acceptSetBanner_queueInv (hd : Header) (f : BannerFields) : QueueInv (acceptSetBanner hd f s) :=
  queueInv_ite (h.answer (bannerTaken_touches (newBanner f) s .results (by decide))) h.answer

theorem acceptClearBanner_queueInv (hd : Header) : QueueInv (acceptClearBanner hd s) := by
  unfold acceptClearBanner
  split
  · exact h.answer (removeBanner_results s)
  · exact h.answer

theorem lapseHold_queueInv : QueueInv (lapseHold s) := by
  unfold lapseHold
  split <;> exact h

theorem restartScroll_queueInv (which : ScrollId) (strip : Option (List Column)) :
    QueueInv (restartScroll which strip s) := by
  unfold restartScroll
  split <;> cases which <;> exact h

theorem clearStep_queueInv (which : ScrollId) : QueueInv (clearStep which s) := by
  cases which <;> exact h

theorem landStep_queueInv (which : ScrollId) (r : StepResult) : QueueInv (landStep which r s) :=
  h.of_same (landStep_touches which r s) (by cases which <;> decide)

theorem placeImage_queueInv (line : Nat) (image : List Column) : QueueInv (placeImage line image s) := h

theorem placeComposed_queueInv (line : Nat) (c : Composed) : QueueInv (placeComposed line c s) := h

theorem freeEngine_queueInv : QueueInv (freeEngine s) := h

theorem tableJobDone_queueInv : QueueInv (tableJobDone s) := by
  have hfree := freeEngine_queueInv h
  unfold tableJobDone
  split
  · split
    · have hplaced := placeComposed_queueInv hfree
      exact queueInv_ite (queueInv_ite (restartScroll_queueInv (clearStep_queueInv (hplaced _ _) _) _ _) (hplaced _ _)) hfree
    · exact hfree
  · exact h

theorem clockJobDone_queueInv : QueueInv (clockJobDone s) := by
  have hfree := freeEngine_queueInv h
  unfold clockJobDone
  split
  · split
    · exact queueInv_ite (placeComposed_queueInv hfree _ _) hfree
    · exact hfree
  · exact h

theorem callingStepDone_queueInv : QueueInv (callingStepDone s) := by
  have hfree := freeEngine_queueInv h
  unfold callingStepDone
  split
  · split
    · exact queueInv_ite (placeImage_queueInv (landStep_queueInv hfree _ _) _ _) hfree
    · exact hfree
  · exact h

theorem bannerComposeDone_queueInv : QueueInv (bannerComposeDone s) := by
  have hfree := freeEngine_queueInv h
  unfold bannerComposeDone
  split
  · split
    · exact queueInv_ite (restartScroll_queueInv (placeComposed_queueInv hfree _ _) _ _) hfree
    · exact hfree
  · exact h

theorem bannerStepDone_queueInv : QueueInv (bannerStepDone s) := by
  have hfree := freeEngine_queueInv h
  unfold bannerStepDone
  split
  · split
    · exact queueInv_ite (placeImage_queueInv (landStep_queueInv hfree _ _) _ _) hfree
    · exact hfree
  · exact h

/-! ### Time and the settings -/

theorem refreshFeed_queueInv : QueueInv (refreshFeed s) := by
  unfold refreshFeed
  dsimp only
  split
  · exact h
  · exact (h.withTime _).of_same (selectBoard_sameBut _)

theorem debounceStation_queueInv (code : Byte) : QueueInv (debounceStation code s) := by
  obtain ⟨a, ⟨hsame, -⟩, -⟩ := debounceStation_repaints code s
  exact h.of_same hsame

theorem takeStationTime_queueInv (minute second : Nat) : QueueInv (takeStationTime minute second s) := by
  obtain ⟨hsame, -⟩ := takeStationTime_frame minute second s
  exact h.of_same hsame

theorem judgeRecord_queueInv (o1 o2 o3 o4 o5 : Octet) : QueueInv (judgeRecord o1 o2 o3 o4 o5 s) :=
  queueInv_ite (debounceStation_queueInv (takeStationTime_queueInv (refreshFeed_queueInv (h.withFeed _)) _ _) _) h

theorem applySettings_queueInv (new : Settings) : QueueInv (applySettings new s) := by
  rw [applySettings_eq]
  have hfilter : QueueInv (withFilterApplied new s) := queueInv_ite h h
  have horigin {u : State} (hu : QueueInv u) : QueueInv (withOriginApplied s.settings u) := queueInv_ite hu hu
  have hholdover {u : State} (hu : QueueInv u) : QueueInv (withHoldoverApplied s.settings u) :=
    queueInv_ite (queueInv_ite (hu.of_same (lapseFeed_sameBut u)) hu) hu
  have hsuspend {u : State} (hu : QueueInv u) : QueueInv (withSuspendApplied s.settings u) :=
    hu.of_same (withSuspendApplied_sameBut _ u)
  have hfont {u : State} (hu : QueueInv u) : QueueInv (withFontApplied s.settings u) := queueInv_ite hu hu
  exact hfont (hsuspend (hholdover (horigin hfilter)))

theorem acceptSetBoard_queueInv (hd : Header) (f : BoardFields) : QueueInv (acceptSetBoard hd f s) :=
  queueInv_ite h.answer (queueInv_ite h.answer (applySettings_queueInv h _).answer)

/-! ### Every operation -/

theorem acceptMessage_queueInv (hd : Header) (m : Message) : QueueInv (acceptMessage hd m s) := by
  cases m with
  | post f => exact acceptPost_queueInv h hd f
  | amend f => exact acceptAmend_queueInv h hd f
  | retire key => exact acceptRetire_queueInv h hd key
  | clearBoard => exact h.answer
  | holdBoard => exact h.answer
  | releaseBoard =>
    show QueueInv (acceptRelease hd s)
    rw [acceptRelease_eq]
    exact h.answer
  | setBanner f => exact acceptSetBanner_queueInv h hd f
  | clearBanner => exact acceptClearBanner_queueInv h hd
  | writePlace f => exact acceptWrite_queueInv h hd f
  | eraseSector sector => exact acceptErase_queueInv h hd sector
  | suspendErase => exact acceptSuspend_queueInv h hd
  | resumeErase => exact acceptResume_queueInv h hd
  | lockSectors sectors => exact acceptLock_queueInv h hd sectors
  | freeSectors sectors => exact acceptFree_queueInv h hd sectors
  | readService key | readPlace place => exact queueInv_ite (h.enqueueRead _ _) (h.answerRead _ _ _ _)
  | readBoard => exact h.enqueueRead _ _
  | setBoard f => exact acceptSetBoard_queueInv h hd f
  | restart =>
    show QueueInv (acceptRestart s)
    rw [acceptRestart_whole]
    exact h.of_sublist (List.nil_sublist _)

end

theorem settle_queueInv {s : State} (h : QueueInv s) : QueueInv (settle s) := h.of_results (settle_results s)

theorem Operation.queueInv {s t : State} (ho : Operation s t) (h : QueueInv s) : QueueInv t := by
  cases ho with
  | accept hd m => exact acceptMessage_queueInv h hd m
  | answer kind hd o d => exact h.answer
  | answerRead kind hd o d => exact h.answerRead kind hd o d
  | settle => exact settle_queueInv h
  | unpack v => exact h
  | receive v _ _ => exact h
  | record o1 o2 o3 o4 o5 => exact judgeRecord_queueInv h o1 o2 o3 o4 o5
  | minute => exact h.of_same (advanceMinute_sameBut s)
  | lapse => exact h.of_same (lapseFeed_sameBut s)
  | expiry => exact h.of_same (windowExpiry_sameBut s)
  | written v => exact completeWrite_queueInv h v
  | gathered => exact gatherExpiry_queueInv h
  | erased => exact sectorDone_queueInv h
  | suspended => exact suspensionDone_queueInv h
  | locked => exact lockDone_queueInv h
  | scanned => exact h.of_same (scanDone_touches s)
  | holdLapse => exact lapseHold_queueInv h
  | bannerExpiry => exact h.of_results (expireBanner_results s)
  | tableJob => exact tableJobDone_queueInv h
  | clockJob => exact clockJobDone_queueInv h
  | callingStep => exact callingStepDone_queueInv h
  | bannerCompose => exact bannerComposeDone_queueInv h
  | bannerStep => exact bannerStepDone_queueInv h
  | pause which => exact h.of_same (endPause_touches which s) (by cases which <;> decide)
  | stepDue which => exact h.of_same (stepDue_touches which s) (by cases which <;> decide)
  | refresh => exact h.of_same (refreshFrame_sameBut s)
  | latch => exact h.of_same (latchShift_sameBut s)
  | returnSlot => exact returnSlot_queueInv h
  | key => exact h.of_same (keyDebounced_sameBut s)

theorem Operations.queueInv {s t : State} (ho : Operations s t) (h : QueueInv s) : QueueInv t :=
  ho.keep (fun _ _ => Operation.queueInv) h

/-! ### Every step -/

theorem tick_queueInv {s : State} (h : QueueInv s) : QueueInv (tick s) := by
  have htimers : QueueInv (advanceTimers s) := h
  have hclock : QueueInv (runClock (advanceTimers s)) :=
    queueInv_ite (queueInv_ite htimers (queueInv_ite htimers
      (settle_queueInv (htimers.of_same (advanceMinute_sameBut _))))) htimers
  exact (tick_operations s).queueInv
    (queueInv_ite (settle_queueInv (hclock.of_same (lapseFeed_sameBut _))) hclock)

theorem Executed.queueInv {s t : State} (he : Executed s t) (h : QueueInv s) : QueueInv t := by
  cases he with
  | idle => exact h
  | chain _ hops => exact hops.queueInv h
  | keyInput closed => exact h
  | reset => exact h.of_sublist (List.nil_sublist _)
  | release geo1 geo0 hp =>
    rw [releaseReset_eq geo1 geo0 hp]
    refine settle_queueInv ?_
    obtain ⟨hsame, -⟩ := applyBoard_repaints (deriveBoard (releasedPart geo1 geo0 s).feed.station
      (releasedPart geo1 geo0 s).time.freshness (releasedPart geo1 geo0 s).time.valid) (releasedPart geo1 geo0 s)
    exact QueueInv.of_same (s := releasedPart geo1 geo0 s) h hsame

/-- Settles O8: every operation keeps the result queue in order, and the millisecond and the resets enter nothing. -/
theorem resultQueueInvariantKept : Obligations.ResultQueueInvariantKept := by
  intro s t h hstep
  rcases step_executed hstep with ⟨rest, he⟩ | ⟨-, rfl⟩ | ⟨-, rfl⟩
  · exact he.queueInv h
  · exact h
  · exact tick_queueInv h

end Sys2Proof.Machine

/-! SUPPORT for O36. Readers that read an item back from its octets and from nothing shorter, one after another up to the end of the
parameters; and the bits of a presence mask. -/

namespace Sys2Proof.Machine

/-! ### Items -/

/-- A reader reads an item back from its octets whatever follows, and nothing when they end too soon (R179). -/
structure ReadsBack {α : Type} (f : Reader α) (l : List Byte) (a : α) : Prop where
  back : ∀ r, f (l ++ r) = some (a, r)
  short : ∀ n < l.length, f (l.take n) = none

/-- A run of octets cut short ends within its first part, or after it and within the second. -/
theorem take_append_short {l r : List Byte} {n : Nat} (h : n < (l ++ r).length) :
    (n < l.length ∧ (l ++ r).take n = l.take n) ∨ ∃ m < r.length, (l ++ r).take n = l ++ r.take m := by
  rw [List.length_append] at h
  rcases Nat.lt_or_ge n l.length with hn | hn
  · exact .inl ⟨hn, List.take_append_of_le_length hn.le⟩
  · refine .inr ⟨n - l.length, by omega, ?_⟩
    rw [List.take_append, List.take_of_length_le hn]

section
variable {α : Type} {f : Reader α} {a : α}

/-- A reader that takes an octet and then reads as that octet says. -/
theorem ReadsBack.cons {g : Byte → Reader α} {b : Byte} {l : List Byte} (hnil : f [] = none)
    (hcons : ∀ r, f (b :: r) = g b r) (h : ReadsBack (g b) l a) : ReadsBack f (b :: l) a := by
  refine ⟨fun r => (hcons _).trans (h.back r), fun n hn => ?_⟩
  cases n with
  | zero => exact hnil
  | succ n => exact (hcons _).trans (h.short n (Nat.lt_of_succ_lt_succ hn))

/-- An item that stands when it is present (R179). -/
theorem readIf_back {enc : α → List Byte} {o : Option α} {present : Bool} (hp : present = o.isSome)
    (h : ∀ a ∈ o, ReadsBack f (enc a) a) : ReadsBack (readIf present f) (ifPresent enc o) o := by
  subst hp
  cases o with
  | none => exact ⟨fun r => rfl, nofun⟩
  | some a =>
    obtain ⟨hback, hshort⟩ := h a rfl
    refine ⟨fun r => ?_, fun n hn => ?_⟩
    · simp [readIf, ifPresent, hback]
    · simp [readIf, ifPresent, hshort n hn]

theorem readMany_back {enc : α → List Byte} {l : List α} (h : ∀ a ∈ l, ReadsBack f (enc a) a) :
    ReadsBack (readMany f l.length) (l.flatMap enc) l := by
  induction l with
  | nil => exact ⟨fun r => rfl, nofun⟩
  | cons a as ih =>
    obtain ⟨ha, has⟩ := List.forall_mem_cons.1 h
    have hrest := ih has
    rw [List.flatMap_cons, List.length_cons]
    refine ⟨fun r => ?_, fun n hn => ?_⟩
    · rw [List.append_assoc, readMany, ha.back]
      dsimp only
      rw [hrest.back]
    · rcases take_append_short hn with ⟨hn, htake⟩ | ⟨m, hm, htake⟩
      · rw [htake, readMany, ha.short n hn]
      · rw [htake, readMany, ha.back]
        dsimp only
        rw [hrest.short m hm]

/-- A list reads back from its count and its items (R179). -/
theorem readList_back {enc : α → List Byte} {l : List α} (hl : l.length < 256) (h : ∀ a ∈ l, ReadsBack f (enc a) a) :
    ReadsBack (readList f) (listOctets enc l) l := by
  refine ReadsBack.cons (g := fun b => readMany f b.toNat) rfl (fun _ => rfl) ?_
  rw [octet1_toNat hl]
  exact readMany_back h

end

/-! ### Numbers, texts and stops -/

theorem number2_octets {n : Nat} (h : n < 65536) : number2 (octet1 (n / 256)) (octet1 (n % 256)) = n := by
  unfold number2
  rw [octet1_toNat (by omega), octet1_toNat (by omega)]
  omega

theorem readOctet_back (b : Byte) : ReadsBack readOctet [b] b :=
  .cons (g := fun b r => some (b, r)) rfl (fun _ => rfl) ⟨fun _ => rfl, nofun⟩

theorem readNumber1_back {n : Nat} (h : n < 256) : ReadsBack readNumber1 [octet1 n] n := by
  refine .cons (g := fun b r => some (b.toNat, r)) rfl (fun _ => rfl) ⟨fun r => ?_, nofun⟩
  rw [octet1_toNat h]
  rfl

theorem readSwitch_back (b : Bool) : ReadsBack readSwitch [yesNo b] b :=
  .cons (g := fun b r => some (b != 0, r)) rfl (fun _ => rfl) ⟨fun _ => by cases b <;> rfl, nofun⟩

theorem readNumber2_back {n : Nat} (h : n < 65536) : ReadsBack readNumber2 (octets2 n) n := by
  refine ⟨fun r => ?_, fun k hk => ?_⟩
  · exact congrArg (fun n => some (n, r)) (number2_octets h)
  · match k, hk with
    | 0, _ => rfl
    | 1, _ => rfl

theorem readInteger2_back {i : Int} (hlow : -32768 ≤ i) (hhigh : i ≤ 32767) : ReadsBack readInteger2 (signed2 i) i := by
  refine ⟨fun r => ?_, fun k hk => ?_⟩
  · refine congrArg (fun i => some (i, r)) ?_
    unfold integer2
    rw [number2_octets (by omega)]
    split <;> omega
  · match k, hk with
    | 0, _ => rfl
    | 1, _ => rfl

theorem readOctets_back (t : List Byte) : ReadsBack (readOctets t.length) t t := by
  refine ⟨fun r => ?_, fun n hn => ?_⟩
  · unfold readOctets
    rw [if_pos (by simp), List.take_left, List.drop_left]
  · unfold readOctets
    rw [if_neg (by simpa using hn)]

theorem readText_back {t : Text} (h : t.length < 256) : ReadsBack readText (textOctets t) t := by
  refine .cons (g := fun b => readOctets b.toNat) rfl (fun _ => rfl) ?_
  rw [octet1_toNat h]
  exact readOctets_back t

theorem stopFlags_back (request skipped : Bool) :
    (octet1 (maskBit request 0 + maskBit skipped 1)).getLsbD 0 = request ∧
      (octet1 (maskBit request 0 + maskBit skipped 1)).getLsbD 1 = skipped := by
  cases request <;> cases skipped <;> decide

theorem readStop_back {st : Stop} (h : st.place < 65536) : ReadsBack readStop (stopOctets st) st := by
  obtain ⟨hrequest, hskipped⟩ := stopFlags_back st.request st.skipped
  refine ⟨fun r => ?_, fun k hk => ?_⟩
  · refine congrArg (fun st => some (st, r)) ?_
    rw [number2_octets h, hrequest, hskipped]
  · match k, hk with
    | 0, _ => rfl
    | 1, _ => rfl
    | 2, _ => rfl

/-! ### What fits -/

theorem fitsPair_iff {n : Nat} : fitsPair n = true ↔ n < 65536 := decide_eq_true_iff
theorem fitsOctet_iff {n : Nat} : fitsOctet n = true ↔ n < 256 := decide_eq_true_iff
theorem countFits_iff {α : Type} {l : List α} : countFits l = true ↔ l.length < 256 := decide_eq_true_iff

theorem fitsSigned_iff {i : Int} : fitsSigned i = true ↔ -32768 ≤ i ∧ i ≤ 32767 := by
  unfold fitsSigned
  rw [Bool.and_eq_true, decide_eq_true_iff, decide_eq_true_iff]

theorem fitsIf_iff {α : Type} {f : α → Bool} {o : Option α} : fitsIf f o = true ↔ ∀ a ∈ o, f a = true := by
  cases o with
  | none => exact ⟨fun _ => nofun, fun _ => rfl⟩
  | some a => exact ⟨fun h b hb => Option.mem_some_iff.1 hb ▸ h, fun h => h a rfl⟩

section
variable {present : Bool}

theorem readIf_signed {o : Option Int} (hp : present = o.isSome) (h : fitsIf fitsSigned o = true) :
    ReadsBack (readIf present readInteger2) (ifPresent signed2 o) o :=
  readIf_back hp fun a ha =>
    have ⟨hlow, hhigh⟩ := fitsSigned_iff.1 (fitsIf_iff.1 h a ha)
    readInteger2_back hlow hhigh

theorem readIf_pair {o : Option Nat} (hp : present = o.isSome) (h : fitsIf fitsPair o = true) :
    ReadsBack (readIf present readNumber2) (ifPresent octets2 o) o :=
  readIf_back hp fun a ha => readNumber2_back (fitsPair_iff.1 (fitsIf_iff.1 h a ha))

theorem readIf_octet {o : Option Nat} (hp : present = o.isSome) (h : fitsIf fitsOctet o = true) :
    ReadsBack (readIf present readNumber1) (ifPresent (fun n => [octet1 n]) o) o :=
  readIf_back hp fun a ha => readNumber1_back (fitsOctet_iff.1 (fitsIf_iff.1 h a ha))

theorem readIf_switch {o : Option Bool} (hp : present = o.isSome) :
    ReadsBack (readIf present readSwitch) (ifPresent (fun b => [yesNo b]) o) o :=
  readIf_back hp fun a _ => readSwitch_back a

theorem readIf_text {o : Option Text} (hp : present = o.isSome) (h : fitsIf countFits o = true) :
    ReadsBack (readIf present readText) (ifPresent textOctets o) o :=
  readIf_back hp fun a ha => readText_back (countFits_iff.1 (fitsIf_iff.1 h a ha))

theorem readIf_indices {o : Option (List Nat)} (hp : present = o.isSome) (h : fitsIf indicesFit o = true) :
    ReadsBack (readIf present (readList readNumber1)) (ifPresent (listOctets fun n => [octet1 n]) o) o :=
  readIf_back hp fun l hl => by
    obtain ⟨hcount, hall⟩ := Bool.and_eq_true_iff.1 (fitsIf_iff.1 h l hl)
    exact readList_back (countFits_iff.1 hcount) fun n hn => readNumber1_back (fitsOctet_iff.1 (List.all_eq_true.1 hall n hn))

theorem readIf_texts {o : Option (List Text)} (hp : present = o.isSome)
    (h : fitsIf (fun l => countFits l && l.all countFits) o = true) :
    ReadsBack (readIf present (readList readText)) (ifPresent (listOctets textOctets) o) o :=
  readIf_back hp fun l hl => by
    obtain ⟨hcount, hall⟩ := Bool.and_eq_true_iff.1 (fitsIf_iff.1 h l hl)
    exact readList_back (countFits_iff.1 hcount) fun t ht => readText_back (countFits_iff.1 (List.all_eq_true.1 hall t ht))

end

/-! ### Presence masks -/

/-- The mask whose bits, from bit 0, are those of a list. -/
def maskFrom (l : List Bool) : Nat := l.foldr Nat.bit 0

theorem maskFrom_cons (b : Bool) (l : List Bool) : maskFrom (b :: l) = Nat.bit b (maskFrom l) := rfl

theorem maskFrom_testBit (l : List Bool) (i : Nat) : (maskFrom l).testBit i = l.getD i false := by
  induction l generalizing i with
  | nil => exact Nat.zero_testBit i
  | cons b l ih =>
    rw [maskFrom_cons]
    cases i with
    | zero => exact Nat.testBit_bit_zero b _
    | succ i => exact (Nat.testBit_bit_succ i b _).trans (ih i)

theorem maskFrom_lt (l : List Bool) : maskFrom l < 2 ^ l.length := by
  induction l with
  | nil => exact Nat.one_pos
  | cons b l ih =>
    rw [maskFrom_cons, Nat.bit_val, List.length_cons, Nat.pow_succ]
    have hb := b.toNat_le
    omega

theorem maskBit_eq (b : Bool) (n : Nat) : maskBit b n = b.toNat * 2 ^ n := by
  cases b
  · exact (Nat.zero_mul _).symm
  · exact (Nat.one_mul _).symm

/-- A bit of an octet of a mask, the `k` lowest bits of which stand in the octets after it. -/
theorem octet1_mask_bit (l : List Bool) (k : Nat) {i : Nat} (hi : i < 8) :
    (octet1 (maskFrom l / 2 ^ k)).getLsbD i = l.getD (k + i) false := by
  unfold octet1
  rw [BitVec.getLsbD_ofNat, decide_eq_true hi, Bool.true_and, Nat.testBit_div_two_pow, maskFrom_testBit, Nat.add_comm]

/-- The first octet of a mask sets no bit beyond those of the list. -/
theorem octet1_mask_lt {l : List Bool} {k m : Nat} (hl : l.length = k + m) (hm : m ≤ 8) :
    (octet1 (maskFrom l / 2 ^ k)).toNat < 2 ^ m := by
  have hlt : maskFrom l / 2 ^ k < 2 ^ m := by
    refine Nat.div_lt_of_lt_mul ?_
    rw [← Nat.pow_add, ← hl]
    exact maskFrom_lt l
  rwa [octet1_toNat (hlt.trans_le (Nat.pow_le_pow_right Nat.two_pos hm))]

/-- The mask of one octet. -/
theorem mask_octet {l : List Bool} (hl : l.length ≤ 8) : ∃ mask, octet1 (maskFrom l) = mask ∧ mask.toNat < 2 ^ l.length ∧
    ∀ i < 8, mask.getLsbD i = l.getD i false := by
  have hsame : maskFrom l / 2 ^ 0 = maskFrom l := Nat.div_one _
  refine ⟨_, rfl, ?_, fun i hi => ?_⟩
  · rw [← hsame]
    exact octet1_mask_lt (Nat.zero_add _).symm hl
  · rw [← hsame, octet1_mask_bit l 0 hi, Nat.zero_add]

end Sys2Proof.Machine

/-! O36. Every message reads back from its octets, and the structure check refuses octets that end too soon, octets left over, and a
presence mask with a bit that names no field. -/

namespace Sys2Proof.Machine

/-! ### The whole of the parameters -/

/-- Parameters are read whole: as they stand they give the value, and neither cut short nor with octets over are they accepted
(R177). -/
structure ReadsWhole {β : Type} (k : List Byte → Option β) (l : List Byte) (b : β) : Prop where
  back : k l = some b
  short : ∀ n < l.length, k (l.take n) = none
  long : ∀ extra, extra ≠ [] → k (l ++ extra) = none

section
variable {α β : Type} {f : Reader α} {a : α} {b : β} {l r : List Byte}

/-- An item, then the rest of the parameters. -/
theorem ReadsWhole.after {k : α × List Byte → Option β} (h : ReadsBack f l a) (hk : ReadsWhole (fun r => k (a, r)) r b) :
    ReadsWhole (fun x => f x >>= k) (l ++ r) b := by
  have first (x : List Byte) : (f (l ++ x) >>= k) = k (a, x) := by rw [h.back x]; rfl
  refine ⟨(first r).trans hk.back, fun n hn => ?_, fun extra hx => ?_⟩
  · show (f ((l ++ r).take n) >>= k) = none
    rcases take_append_short hn with ⟨hn, htake⟩ | ⟨m, hm, htake⟩
    · rw [htake, h.short n hn]
      rfl
    · rw [htake, first]
      exact hk.short m hm
  · show (f (l ++ r ++ extra) >>= k) = none
    rw [List.append_assoc, first]
    exact hk.long extra hx

/-- The octet at the front, then the rest of the parameters. -/
theorem ReadsWhole.afterOctet {k : Byte × List Byte → Option β} {o : Byte} (hk : ReadsWhole (fun r => k (o, r)) r b) :
    ReadsWhole (fun x => readOctet x >>= k) (o :: r) b := ReadsWhole.after (readOctet_back o) hk

/-- The end of the parameters, under a mask in range. -/
theorem ReadsWhole.atEnd {p : Bool} (hp : p = true) :
    ReadsWhole (fun x : List Byte => if p && x.isEmpty then some b else none) [] b := by
  subst hp
  refine ⟨rfl, nofun, fun extra hx => ?_⟩
  cases extra with
  | nil => exact absurd rfl hx
  | cons o r => rfl

/-- A single item and no more (R177). -/
theorem ReadsBack.whole (h : ReadsBack f l a) : ReadsWhole (fun x => whole (f x)) l a := by
  have hback := h.back []
  rw [List.append_nil] at hback
  refine ⟨by rw [hback]; rfl, fun n hn => by rw [h.short n hn]; rfl, fun extra hx => ?_⟩
  rw [h.back]
  cases extra with
  | nil => exact absurd rfl hx
  | cons o r => rfl

theorem ReadsWhole.map {k : List Byte → Option α} (h : ReadsWhole k l a) (g : α → β) :
    ReadsWhole (fun x => (k x).map g) l (g a) :=
  ⟨congrArg (Option.map g) h.back, fun n hn => congrArg (Option.map g) (h.short n hn),
    fun extra hx => congrArg (Option.map g) (h.long extra hx)⟩

end

theorem readNothing_whole (m : Message) : ReadsWhole (readNothing m) [] m :=
  ReadsWhole.atEnd (p := true) rfl

/-! ### The messages with fields -/

/-- The presence of each optional field of a POST SERVICE, in the order of its mask (R179). -/
def postFlags (f : PostFields) : List Bool := [f.delay.isSome, f.via.isSome, f.train.isSome]

theorem postMask_eq (f : PostFields) :
    maskBit f.delay.isSome 0 + maskBit f.via.isSome 1 + maskBit f.train.isSome 2 = maskFrom (postFlags f) := by
  simp only [postFlags, maskBit_eq, maskFrom, List.foldr, Nat.bit_val]
  omega

theorem readPost_whole {f : PostFields} (h : f.fits = true) : ReadsWhole readPost (postOctets f) f := by
  simp only [PostFields.fits, Bool.and_eq_true, List.all_eq_true] at h
  obtain ⟨⟨⟨⟨⟨⟨⟨⟨⟨hkey, hscheduled⟩, hstate⟩, hplatform⟩, hdestination⟩, hdelay⟩, hvia⟩, hcount⟩, hstops⟩, htrain⟩ := h
  obtain ⟨hlow, hhigh⟩ := fitsSigned_iff.1 hscheduled
  obtain ⟨mask, hmask, hrange, hbit⟩ := mask_octet (l := postFlags f) (by simp [postFlags])
  unfold postOctets
  rw [postMask_eq, hmask, ← List.append_nil (_ ++ _)]
  simp only [List.cons_append, List.append_assoc, List.nil_append]
  unfold readPost
  refine .afterOctet (.after (readNumber2_back (fitsPair_iff.1 hkey)) (.afterOctet
    (.after (readInteger2_back hlow hhigh) ?_)))
  refine .after (l := [octet1 f.state]) (readNumber1_back (fitsOctet_iff.1 hstate)) ?_
  refine .after (readText_back (countFits_iff.1 hplatform)) (.after (readNumber2_back (fitsPair_iff.1 hdestination)) ?_)
  refine .after (readIf_signed (hbit 0 (by decide)) hdelay) (.after (readIf_pair (hbit 1 (by decide)) hvia) ?_)
  refine .after (readList_back (countFits_iff.1 hcount) fun st hst => readStop_back (fitsPair_iff.1 (hstops st hst))) ?_
  refine .after (readIf_octet (hbit 2 (by decide)) htrain) (.atEnd ?_)
  exact decide_eq_true hrange

/-- The presence of each optional field of an AMEND SERVICE, in the order of its mask (R179). -/
def amendFlags (f : AmendFields) : List Bool :=
  [f.delay.isSome, f.state.isSome, f.platform.isSome, f.train.isSome, f.skip.isSome, f.restore.isSome]

theorem amendMask_eq (f : AmendFields) : maskBit f.delay.isSome 0 + maskBit f.state.isSome 1 + maskBit f.platform.isSome 2 +
    maskBit f.train.isSome 3 + maskBit f.skip.isSome 4 + maskBit f.restore.isSome 5 = maskFrom (amendFlags f) := by
  simp only [amendFlags, maskBit_eq, maskFrom, List.foldr, Nat.bit_val]
  omega

theorem readAmend_whole {f : AmendFields} (h : f.fits = true) : ReadsWhole readAmend (amendOctets f) f := by
  simp only [AmendFields.fits, Bool.and_eq_true] at h
  obtain ⟨⟨⟨⟨⟨⟨hkey, hdelay⟩, hstate⟩, hplatform⟩, htrain⟩, hskip⟩, hrestore⟩ := h
  obtain ⟨mask, hmask, hrange, hbit⟩ := mask_octet (l := amendFlags f) (by simp [amendFlags])
  unfold amendOctets
  rw [amendMask_eq, hmask, ← List.append_nil (_ ++ _)]
  simp only [List.cons_append, List.append_assoc, List.nil_append]
  unfold readAmend
  refine .afterOctet (.after (readNumber2_back (fitsPair_iff.1 hkey)) (.afterOctet ?_))
  refine .after (readIf_signed (hbit 0 (by decide)) hdelay) (.after (readIf_octet (hbit 1 (by decide)) hstate) ?_)
  refine .after (readIf_text (hbit 2 (by decide)) hplatform) (.after (readIf_octet (hbit 3 (by decide)) htrain) ?_)
  refine .after (readIf_indices (hbit 4 (by decide)) hskip) (.after (readIf_indices (hbit 5 (by decide)) hrestore) (.atEnd ?_))
  exact decide_eq_true hrange

theorem readWrite_whole {f : WriteFields} (h : f.fits = true) : ReadsWhole readWrite (writeOctets f) f := by
  simp only [WriteFields.fits, Bool.and_eq_true, decide_eq_true_iff] at h
  obtain ⟨⟨⟨hplace, hfull⟩, hshort⟩, hcode⟩ := h
  have hmask_eq : maskBit f.entry.short.isSome 0 = maskFrom [f.entry.short.isSome] := by cases f.entry.short.isSome <;> rfl
  obtain ⟨mask, hmask, hrange, hbit⟩ := mask_octet (l := [f.entry.short.isSome]) (by simp)
  unfold writeOctets
  rw [hmask_eq, hmask, ← List.append_nil (_ ++ _)]
  simp only [List.cons_append, List.append_assoc]
  unfold readWrite
  refine .afterOctet (.after (readNumber2_back (fitsPair_iff.1 hplace)) (.after (readText_back (countFits_iff.1 hfull)) ?_))
  refine .after (readIf_text (hbit 0 (by decide)) hshort) (.after (hcode ▸ readOctets_back f.entry.code) (.atEnd ?_))
  exact decide_eq_true hrange

theorem readBanner_whole {f : BannerFields} (h : f.fits = true) :
    ReadsWhole readBanner (textOctets f.text ++ octets2 f.duration) f := by
  simp only [BannerFields.fits, Bool.and_eq_true] at h
  obtain ⟨htext, hduration⟩ := h
  rw [← List.append_nil (_ ++ _), List.append_assoc]
  unfold readBanner
  exact .after (readText_back (countFits_iff.1 htext)) (.after (readNumber2_back (fitsPair_iff.1 hduration)) (.atEnd rfl))

/-- The presence of each setting of a SET BOARD, in the order of R186. -/
def boardFlags (f : BoardFields) : List Bool :=
  [f.filter.isSome, f.origin.isSome, f.sweepLength.isSome, f.holdover.isSome, f.holdLimit.isSome, f.countdown.isSome,
    f.lateThreshold.isSome, f.horizon.isSome, f.grace.isSome, f.dwell.isSome, f.scrollRate.isSome, f.scrollPause.isSome,
    f.scrollEnable.isSome, f.clockEnable.isSome, f.bannerEnable.isSome, f.autoSuspend.isSome, f.alignWindow.isSome,
    f.mimicCheck.isSome, f.debounce.isSome, f.smallFont.isSome]

theorem boardMask_eq (f : BoardFields) : boardMask f = maskFrom (boardFlags f) := by
  simp only [boardMask, boardFlags, maskBit_eq, maskFrom, List.foldr, Nat.bit_val]
  omega

/-- The three octets of a SET BOARD's mask, high octet first: the size of the first, and the bits of each (R186). -/
theorem boardMask_octets (f : BoardFields) : ∃ m2 m1 m0, octet1 (boardMask f / 65536) = m2 ∧ octet1 (boardMask f / 256) = m1 ∧
    octet1 (boardMask f) = m0 ∧ m2.toNat < 16 ∧ (∀ i < 8, m2.getLsbD i = (boardFlags f).getD (16 + i) false) ∧
    (∀ i < 8, m1.getLsbD i = (boardFlags f).getD (8 + i) false) ∧ ∀ i < 8, m0.getLsbD i = (boardFlags f).getD i false := by
  rw [boardMask_eq]
  refine ⟨_, _, _, rfl, rfl, rfl, octet1_mask_lt (k := 16) (m := 4) rfl (by decide), fun i hi => octet1_mask_bit _ 16 hi,
    fun i hi => octet1_mask_bit _ 8 hi, fun i hi => ?_⟩
  have hbit := octet1_mask_bit (boardFlags f) 0 hi
  rwa [Nat.pow_zero, Nat.div_one, Nat.zero_add] at hbit

theorem readBoardFields_whole {f : BoardFields} (h : f.fits = true) : ReadsWhole readBoardFields (boardOctets f) f := by
  simp only [BoardFields.fits, Bool.and_eq_true] at h
  obtain ⟨⟨⟨⟨⟨⟨⟨⟨⟨⟨⟨⟨hfilter, horigin⟩, hhorizon⟩, hsweep⟩, hholdover⟩, hhold⟩, hcountdown⟩, hlate⟩, hgrace⟩, hdwell⟩, hrate⟩,
    hpause⟩, hwindow⟩ := h
  obtain ⟨m2, m1, m0, hm2, hm1, hm0, hrange, hbit2, hbit1, hbit0⟩ := boardMask_octets f
  unfold boardOctets
  dsimp only
  rw [hm2, hm1, hm0, ← List.append_nil (_ ++ _)]
  simp only [List.cons_append, List.append_assoc]
  unfold readBoardFields
  refine .afterOctet (.afterOctet (.afterOctet ?_))
  refine .after (readIf_texts (hbit0 0 (by decide)) hfilter) (.after (readIf_pair (hbit0 1 (by decide)) horigin) ?_)
  refine .after (readIf_octet (hbit0 2 (by decide)) hsweep) (.after (readIf_octet (hbit0 3 (by decide)) hholdover) ?_)
  refine .after (readIf_octet (hbit0 4 (by decide)) hhold) (.after (readIf_octet (hbit0 5 (by decide)) hcountdown) ?_)
  refine .after (readIf_octet (hbit0 6 (by decide)) hlate) (.after (readIf_pair (hbit0 7 (by decide)) hhorizon) ?_)
  refine .after (readIf_octet (hbit1 0 (by decide)) hgrace) (.after (readIf_octet (hbit1 1 (by decide)) hdwell) ?_)
  refine .after (readIf_octet (hbit1 2 (by decide)) hrate) (.after (readIf_octet (hbit1 3 (by decide)) hpause) ?_)
  refine .after (readIf_switch (hbit1 4 (by decide))) (.after (readIf_switch (hbit1 5 (by decide))) ?_)
  refine .after (readIf_switch (hbit1 6 (by decide))) (.after (readIf_switch (hbit1 7 (by decide))) ?_)
  refine .after (readIf_octet (hbit2 0 (by decide)) hwindow) (.after (readIf_switch (hbit2 1 (by decide))) ?_)
  refine .after (readIf_switch (hbit2 2 (by decide))) (.after (readIf_switch (hbit2 3 (by decide))) (.atEnd ?_))
  exact decide_eq_true hrange

/-! ### Every kind -/

/-- The reader of a message's kind reads its parameters whole (R177, R179). -/
theorem kindReader_whole {m : Message} {h : Header} (hfit : wellFormed (m.command h) = true) :
    ∃ read, kindReader m.kind = some read ∧ ReadsWhole read m.octets m := by
  cases m with
  | post f => exact ⟨_, rfl, (readPost_whole hfit).map Message.post⟩
  | amend f => exact ⟨_, rfl, (readAmend_whole hfit).map Message.amend⟩
  | retire key => exact ⟨_, rfl, (readNumber2_back (fitsPair_iff.1 hfit)).whole.map Message.retire⟩
  | setBanner f => exact ⟨_, rfl, (readBanner_whole hfit).map Message.setBanner⟩
  | writePlace f => exact ⟨_, rfl, (readWrite_whole hfit).map Message.writePlace⟩
  | eraseSector sector => exact ⟨_, rfl, (readNumber1_back (fitsOctet_iff.1 hfit)).whole.map Message.eraseSector⟩
  | lockSectors sectors => exact ⟨_, rfl, (readOctet_back sectors).whole.map Message.lockSectors⟩
  | freeSectors sectors => exact ⟨_, rfl, (readOctet_back sectors).whole.map Message.freeSectors⟩
  | readService key => exact ⟨_, rfl, (readNumber2_back (fitsPair_iff.1 hfit)).whole.map Message.readService⟩
  | readPlace place => exact ⟨_, rfl, (readNumber2_back (fitsPair_iff.1 hfit)).whole.map Message.readPlace⟩
  | setBoard f => exact ⟨_, rfl, (readBoardFields_whole hfit).map Message.setBoard⟩
  | clearBoard | holdBoard | releaseBoard | clearBanner | suspendErase | resumeErase | readBoard | restart =>
    exact ⟨_, rfl, readNothing_whole _⟩

/-! ### Masks that name no field -/

/-- Parameters of which the rest is refused, whatever is read before it, are refused. -/
theorem rest_refused {α β : Type} {x : Option α} {k : α → Option β} (h : ∀ a, k a = none) : (x >>= k) = none :=
  Option.bind_eq_none_iff.2 fun a _ => h a

/-- As `rest_refused`, after an octet that is there. -/
theorem afterOctet_refused {β : Type} {k : Byte × List Byte → Option β} {o : Byte} {rest : List Byte}
    (h : k (o, rest) = none) : (readOctet (o :: rest) >>= k) = none := h

/-- The end of the parameters under a mask out of range. -/
theorem end_refused {β : Type} {b : β} {mask : Byte} {n : Nat} (h : n ≤ mask.toNat) (x : List Byte) :
    (if decide (mask.toNat < n) && x.isEmpty then some b else none) = none := by
  rw [decide_eq_false (Nat.not_lt.2 h)]
  rfl

section
variable {mask : Byte} (rest : List Byte)

theorem readPost_refused (h : 8 ≤ mask.toNat) : readPost (mask :: rest) = none := by
  refine afterOctet_refused ?_
  iterate 10 refine rest_refused fun ⟨_, _⟩ => ?_
  exact end_refused h _

theorem readAmend_refused (h : 64 ≤ mask.toNat) : readAmend (mask :: rest) = none := by
  refine afterOctet_refused ?_
  iterate 8 refine rest_refused fun ⟨_, _⟩ => ?_
  exact end_refused h _

theorem readWrite_refused (h : 2 ≤ mask.toNat) : readWrite (mask :: rest) = none := by
  refine afterOctet_refused ?_
  iterate 4 refine rest_refused fun ⟨_, _⟩ => ?_
  exact end_refused h _

theorem readBoardFields_refused (h : 16 ≤ mask.toNat) : readBoardFields (mask :: rest) = none := by
  refine afterOctet_refused ?_
  iterate 22 refine rest_refused fun ⟨_, _⟩ => ?_
  exact end_refused h _

end

/-- Parameters of which the fields cannot be read are refused by the reader of their kind. -/
theorem kindReader_refused {α : Type} {kind : Byte} {read : List Byte → Option Message} {f : List Byte → Option α}
    {g : α → Message} {l : List Byte} (hread : kindReader kind = some read) (hl : f l = none)
    (hkind : kindReader kind = some fun l => (f l).map g) : read l = none := by
  obtain rfl := Option.some.inj (hread.symm.trans hkind)
  exact congrArg (Option.map g) hl

/-- Settles O36, by the kind of the message, each field read in its turn. -/
theorem parametersReadBack : Obligations.ParametersReadBack := by
  refine ⟨fun m h hfit => ?_, fun kind read mask rest hread hmask => ?_⟩
  · obtain ⟨read, hread, hback, hshort, hlong⟩ := kindReader_whole hfit
    exact ⟨read, hread, hback, hshort, hlong⟩
  · rcases hmask with ⟨rfl, h⟩ | ⟨rfl, h⟩ | ⟨rfl, h⟩ | ⟨rfl, h⟩
    · exact kindReader_refused hread (readPost_refused rest h) rfl
    · exact kindReader_refused hread (readAmend_refused rest h) rfl
    · exact kindReader_refused hread (readWrite_refused rest h) rfl
    · exact kindReader_refused hread (readBoardFields_refused rest h) rfl

end Sys2Proof.Machine

/-! O35. A good message: the octet that completes it runs the command of its kind, or answers its refusal. -/

namespace Sys2Proof.Machine

/-! ### Messages as commands -/

/-- A message's command is its acceptance by its owner and the arbiter's decision (R177; log entry 8). -/
theorem exec_command (h : Header) (m : Message) {s : State} (hl : Listening s) :
    exec (m.command h) s = .next (settle (acceptMessage h m s)) := by
  have heard : (Host.Outcome.next (feedEvent (acceptMessage h m) s) : Host.Outcome State Fault Refusal) =
      .next (settle (acceptMessage h m s)) := congrArg Host.Outcome.next (feedEvent_of_listening hl _)
  cases m <;> exact heard

/-! ### A kind that is not in the table, and a read -/

/-- The codes of the kind table (R178). -/
def kindCodes : List Byte :=
  [kindPost, kindAmend, kindRetire, kindClear, kindHold, kindRelease, kindSetBanner, kindClearBanner, kindWrite, kindErase,
    kindSuspend, kindResume, kindLock, kindFree, kindReadService, kindReadPlace, kindReadBoard, kindSetBoard, kindRestart]

/-- A code outside the table passes every test of the kind and has no reader (R177). -/
theorem kindReader_none {kind : Byte} (h : kind ∉ kindCodes) : kindReader kind = none := by
  have passed {code : Byte} {a b : Option (List Byte → Option Message)} (hcode : code ∈ kindCodes) (hb : b = none) :
      (if kind = code then a else b) = none := (if_neg fun hk : kind = code => h (hk ▸ hcode)).trans hb
  unfold kindReader
  iterate 19 refine passed (by decide) ?_
  rfl

theorem isReadKind_eq (kind : Byte) : isReadKind kind = decide (kind ∈ ([0x20, 0x21, 0x22] : List Byte)) := by
  simp [isReadKind, kindReadService, kindReadPlace, kindReadBoard, Bool.or_assoc, Bool.beq_eq_decide_eq]

/-- A message refused at the structure check is answered as its reply flag asks, a read whatever its flag (R177). -/
theorem answerStructure_eq (kind : Byte) (h : Header) (s : State) : answerStructure kind h s =
    answer kind { tag := h.tag, reply := h.reply || decide (kind ∈ ([0x20, 0x21, 0x22] : List Byte)) } 6 0 s := by
  unfold answerStructure
  rw [isReadKind_eq]
  cases decide (kind ∈ ([0x20, 0x21, 0x22] : List Byte)) with
  | true =>
    rw [Bool.or_true]
    rfl
  | false =>
    rw [Bool.or_false]
    rfl

/-! ### The octets of a message -/

section
variable {len kind tag flags : Byte} {params : List Byte}

/-- The octets of a message whose CRC matches are dispatched with its parameters (R175, R178). -/
theorem dispatchOctets_message (crc : List Byte) (s : State) (hlen : len.toNat = params.length + 5) :
    dispatchOctets (0xC3 :: len :: kind :: tag :: flags :: (params ++ crc)) s =
      dispatch kind { tag := tag, reply := flags.getLsbD 0 } params s := by
  have htake : (params ++ crc).take (len.toNat - 5) = params := by rw [hlen, Nat.add_sub_cancel, List.take_left]
  show dispatch kind _ ((params ++ crc).take (len.toNat - 5)) s = _
  rw [htake]

/-- The last octet of a good message dispatches it (R174, R175, R177). -/
theorem takeOctet_message {o : Octet} {s : State} (hstate : s.unpacker.state = .body 1) (hstop : o.stopError = false)
    (hlen : len.toNat = params.length + 5) (hoctets : s.unpacker.buffer.map Octet.data ++ [o.data] =
      0xC3 :: len :: kind :: tag :: flags :: (params ++ crcOctets (len :: kind :: tag :: flags :: params))) :
    takeOctet o s =
      .done (dispatch kind { tag := tag, reply := flags.getLsbD 0 } params (withUnpack .searching [] s)) := by
  have hmessage : (s.unpacker.buffer ++ [o]).map Octet.data = _ := (List.map_append).trans hoctets
  have hcrc : crcMatches ((s.unpacker.buffer ++ [o]).map Octet.data) = true :=
    crcMatches_buffer.2 (hmessage ▸ ⟨0xC3, len :: kind :: tag :: flags :: params, rfl⟩)
  rw [takeOctet_body hstate, if_neg (by rw [hstop]; nofun), if_neg (by decide), if_pos hcrc, hmessage,
    dispatchOctets_message _ _ hlen]

end

/-- Settles O35: the octet dispatches the message, and the dispatch is its command, or the refusal of its kind or its
structure. -/
theorem goodMessageRunsItsCommand : Obligations.GoodMessageRunsItsCommand := by
  intro c o s s' k even marks len kind tag flags params hl hd h hk _ hstate hstop hlen hoctets hs'
  have hexec : exec c s = .next (settle (dispatch kind { tag := tag, reply := flags.getLsbD 0 } params s')) := by
    rw [exec_of_delivers hl hd, receiveOctet_payload (s := begun s) h hk,
      payloadOctet_done (takeOctet_message (s := withAlignment (afterOctet k even marks) (begun s)) hstate hstop hlen hoctets), hs']
    rfl
  have hl' : Listening s' := hs' ▸ hl
  have hsame : SameBut [.feed, .unpacker] s s' := hs' ▸ (withFeed_sameBut _ s).trans (withUnpacker_sameBut _ _)
  have refused (hd : Header) (outcome : Nat) : FramedAtRest [.feed, .unpacker, .results] s
      (settle (answer kind hd outcome 0 s')) :=
    framedAtRest_settle (hsame.trans (answer_sameBut kind hd outcome 0 s')) (by decide)
  refine ⟨fun m hkind hparams hfit => ?_, fun hkind => ?_, fun read hread hnone => ?_⟩
  · obtain ⟨read, hread, hwhole⟩ := kindReader_whole hfit
    have hdispatch : dispatch kind { tag := tag, reply := flags.getLsbD 0 } params s' =
        settle (acceptMessage { tag := tag, reply := flags.getLsbD 0 } m s') := by
      subst hkind hparams
      unfold dispatch
      rw [hread]
      dsimp only
      rw [hwhole.back]
    rw [hexec, hdispatch, settle_settle, exec_command _ m hl']
  · refine ⟨_, hexec, ?_⟩
    unfold dispatch
    rw [kindReader_none hkind]
    exact ⟨answered_settle _ _ _ _ _, refused _ _⟩
  · refine ⟨_, hexec, ?_⟩
    unfold dispatch
    rw [hread]
    dsimp only
    rw [hnone]
    dsimp only
    rw [answerStructure_eq]
    exact ⟨refused _ _, answered_settle _ _ _ _ _⟩

end Sys2Proof.Machine

/-! O3. A part held in reset takes no event, neither its own nor one of the feed line: only the level of the staff key input. -/

namespace Sys2Proof.Machine

section
variable {s : State} (h : s.phase = .inReset)
include h

theorem event_of_inReset (f : State → State) : event f s = s := by
  unfold event
  rw [h]

theorem feedEvent_of_inReset (f : State → State) : feedEvent f s = s := by
  unfold feedEvent
  rw [h]

/-- In reset the level of the input is followed, and no de-bounce runs (R190). -/
theorem keyInputChange_of_inReset (closed : Bool) :
    keyInputChange closed s = s.withKey { input := closed, timer := none, asserted := s.key.asserted } := by
  unfold keyInputChange
  rw [h]

/-- Every command is an event but the resets, the release and the staff key input (log entry 6). -/
theorem exec_of_inReset {c : Instr} (hpower : c ≠ .powerOn) (hline : c ≠ .resetLineAssert)
    (hrelease : ∀ geo1 geo0, c ≠ .resetRelease geo1 geo0) (hkey : ∀ closed, c ≠ .staffKeyInputChange closed) :
    exec c s = .next s := by
  cases c with
  | feedOctet | missingOctet | overheadRecord | postService | amendService | retireService | clearBoard | readService
  | writePlace | eraseSector | suspendErase | resumeErase | lockSectors | freeSectors | readPlace | holdBoard | releaseBoard
  | setBanner | clearBanner | setBoard | restart | readBoard =>
    exact congrArg Host.Outcome.next (feedEvent_of_inReset h _)
  | minuteEvent | feedLapsed | sweepWindowExpiry | writeComplete | gatherWindowExpiry | sectorEraseComplete
  | suspensionComplete | lockChangeComplete | scanEnd | holdLapse | bannerExpiry | tableJobComplete | clockJobComplete
  | callingStepComplete | bannerComposeComplete | bannerStepComplete | scrollPauseExpiry | scrollStepDue | refresh
  | shiftComplete | returnOctet | staffKeyDebounced =>
    exact congrArg Host.Outcome.next (event_of_inReset h _)
  | staffKeyInputChange closed => exact absurd rfl (hkey closed)
  | powerOn => exact absurd rfl hpower
  | resetLineAssert => exact absurd rfl hline
  | resetRelease geo1 geo0 => exact absurd rfl (hrelease geo1 geo0)

end

/-- Settles O3, by whether the command is the staff key input. -/
theorem heldInResetTakesNothing : Obligations.HeldInResetTakesNothing := by
  intro c s hreset hpower hline hrelease
  by_cases hkey : ∃ closed, c = .staffKeyInputChange closed
  · obtain ⟨closed, rfl⟩ := hkey
    refine ⟨_, congrArg Host.Outcome.next (keyInputChange_of_inReset hreset closed), withKey_sameBut _ s,
      fun hother => absurd rfl (hother closed), fun b hb => ?_⟩
    cases hb
    rfl
  · have hother : ∀ closed, c ≠ .staffKeyInputChange closed := not_exists.1 hkey
    exact ⟨s, exec_of_inReset hreset hpower hline hrelease hother, .refl _ s, fun _ => rfl,
      fun b hb => absurd hb (hother b)⟩

end Sys2Proof.Machine

/-! O59. The staff key of the running part: its de-bounce started and ended by the input, and the level it takes. -/

namespace Sys2Proof.Machine

/-- The de-bounce starts anew at a level that differs from the de-bounced one, and ends at the return to it (R190). -/
theorem keyInputChange_timer {s : State} (h : Running s) (closed : Bool) : (keyInputChange closed s).key.timer =
    if closed = s.key.asserted then none else if closed = s.key.input then s.key.timer else some 0 := by
  unfold Running at h
  unfold keyInputChange
  rw [h]
  rfl

theorem keyDebounced_of_none {s : State} (h : s.key.timer = none) : keyDebounced s = s := by
  unfold keyDebounced
  rw [h]

/-- The input's level becomes the de-bounced one, and the de-bounce is over (R190). -/
theorem keyDebounced_of_some {s : State} {ms : Nat} (h : s.key.timer = some ms) :
    keyDebounced s = s.withKey { input := s.key.input, timer := none, asserted := s.key.input } := by
  unfold keyDebounced
  rw [h]

/-- Settles O59: the input change by its timer, and the de-bounce's end by whether a de-bounce runs. -/
theorem staffKeyDebounced : Obligations.StaffKeyDebounced := by
  refine fun s hrun => ⟨fun closed => ?_, _, congrArg Host.Outcome.next (event_of_running hrun _),
    framedAtRest_settle (keyDebounced_sameBut s) (by decide), ?_⟩
  · have htimer := keyInputChange_timer hrun closed
    exact ⟨_, rfl, withKey_sameBut _ s, rfl, rfl, fun hback => htimer.trans (if_pos hback),
      fun hdiffers hnew => htimer.trans ((if_neg hdiffers).trans (if_neg hnew)),
      fun hdiffers hsame => htimer.trans ((if_neg hdiffers).trans (if_pos hsame))⟩
  · rw [settle_key]
    exact ⟨fun hnone => congrArg State.key (keyDebounced_of_none hnone),
      fun _ hsome => congrArg State.key (keyDebounced_of_some hsome)⟩

end Sys2Proof.Machine

/-! O1. The queue's front command, the counterpart of `step_idle` for a queue that holds one. -/

namespace Sys2Proof.Machine

/-- A step takes the front command off the queue and runs it; `step_idle` is the case with none waiting. -/
theorem step_command {s : State} {c : Instr} {rest : List Instr} (hq : s.pending = c :: rest) :
    step s = exec c (s.withPending rest) := by
  unfold step
  rw [hq]

theorem withPending_withPending (s : State) (v w : List Instr) : (s.withPending v).withPending w = s.withPending w := rfl

/-- Settles O1: the queue put in place is the one the step reads, and its rest takes its place. -/
theorem stepRunsFrontCommand : Obligations.StepRunsFrontCommand := by
  intro c rest s
  calc step (s.withPending (c :: rest))
      = exec c ((s.withPending (c :: rest)).withPending rest) := step_command (s.withPending_pending (c :: rest))
    _ = exec c (s.withPending rest) := by rw [withPending_withPending]

end Sys2Proof.Machine
